-- ==== Sys2Proof/Config.lean ====
section
/-! DEFINITION. What an implementation of VINCA-RX fixes: the constants of 00_scope.md R8, and the three OPEN
parameters of R8 as plain data, with an uninterpreted value for the machine after reset. -/

namespace Sys2Proof.Config

/-- ACC_BITS: the width of the Raw Packet and Ready Packet registers (00_scope.md R8). -/
abbrev accBits : Nat := 32

/-- FRAME_BITS: the bits in one frame and the field the decoder reads (00_scope.md R8). -/
abbrev frameBits : Nat := 24

/-- FLAG_BITS: the low bits of a packet that hold sign and unit (00_scope.md R8). -/
abbrev flagBits : Nat := 4

/-- MAG_BITS: the bits of magnitude, packet bits 4 to 23 (00_scope.md R8, 90_conflicts.md C1). -/
abbrev magBits : Nat := 20

/-- UNIT_BIT: the packet bit that holds the unit flag (00_scope.md R8). -/
abbrev unitBit : Nat := 0

/-- SIGN_BIT: the packet bit that holds the sign flag (00_scope.md R8). -/
abbrev signBit : Nat := 3

/-- W: the width of the elapsed-time counter and of every timestamp (00_scope.md R8, 92_eei_decisions.md D3). -/
abbrev timeBits : Nat := 32

/-- TICK_MS: the milliseconds of one TICK event (00_scope.md R8). -/
abbrev tickMs : BitVec 32 := 1#32

/-- DEBOUNCE_MS: the spacing an accepted user trigger must exceed, in ms (00_scope.md R8). -/
abbrev debounceMs : BitVec 32 := 500#32

/-- The ten-thousandths of a unit in the text's last place: 10 to the power DECIMALS = 4 (00_scope.md R8). -/
abbrev unitScale : Nat := 10000

/-- RES_MM, 0.01 mm per count, in ten-thousandths of a millimetre (00_scope.md R8, 41_decode.md R138). -/
abbrev resMm : Nat := 100

/-- RES_IN, 0.0005 in per count, in ten-thousandths of an inch (00_scope.md R8, 41_decode.md R138). -/
abbrev resIn : Nat := 5

/-- The choices of EMPTY_REPLAY: what an accepted trigger emits before any packet was decoded (00_scope.md R8). -/
inductive EmptyReplay where
  | suppress
  | emitEmpty
deriving DecidableEq, Repr, Inhabited

/-- The OPEN parameters of 00_scope.md R8. A claim quantifies over every value of them. -/
structure Params where
  /-- GAP_MS, with 0 <= GAP_MS < 2^W. -/
  gapMs        : BitVec 32
  /-- KEYS_CAPABLE. -/
  keysCapable  : Bool
  /-- EMPTY_REPLAY. -/
  emptyReplay  : EmptyReplay
deriving DecidableEq, Repr, Inhabited

/-- The parameters of the machine after reset. The spec gives no value (00_scope.md R8, 91_not_in_source.md N3, N9),
so this constant has no body and no proof can rest on its value. DESIGN CHOICE, safe: log entry 5. -/
opaque startup : Params

end Sys2Proof.Config
end

