-- ==== Sys2Proof/Word.lean ====
section
/-! DEFINITION. The word types of VINCA-RX (00_scope.md R8, R10). All of them are unsigned (R10). -/

namespace Sys2Proof

/-- A packet: the ACC_BITS = 32 bits of RAW, READY or LAST_PKT (10_state.md R20). -/
abbrev Packet := BitVec 32

/-- A count of milliseconds or a timestamp, W = 32 bits, modulo 2^W (10_state.md R25). -/
abbrev Time := BitVec 32

/-- A frame's FRAME_BITS = 24 bits (30_encoding.md R70). -/
abbrev FrameBits := BitVec 24

/-- A magnitude in counts, MAG_BITS = 20 bits (30_encoding.md R74). -/
abbrev Magnitude := BitVec 20

/-- One line level or one data bit. -/
abbrev Bit := BitVec 1

/-- One event word (30_encoding.md R80). -/
abbrev EventWord := BitVec 8

/-- Output text, kept as characters (00_scope.md R13; 93_implementation_defined.md I1). Log entry 8. -/
abbrev Text := List Char

end Sys2Proof
end

