-- ==== Sys2Proof/Syntax.lean ====
section
/-! DEFINITION. The events of VINCA-RX, one constructor per row of spec/opcode_table.json (30_encoding.md R81). -/

namespace Sys2Proof

/-- One event, the block's instruction (00_scope.md R2, R6). -/
inductive Instr where
  /-- CLK_FALL d: a falling clock edge with the data line at level d, 0 low and 1 high (30_encoding.md R82). -/
  | clkFall (d : Bit)
  /-- CLK_RISE: a rising clock edge (30_encoding.md R84). -/
  | clkRise
  /-- TICK: one millisecond of the elapsed-time counter. -/
  | tick
  /-- POLL: one iteration of the consumer's decode loop. -/
  | poll
  /-- TRIG: one user trigger. -/
  | trig
  /-- RESET: the reset input asserted and released. -/
  | reset
deriving DecidableEq, Repr

end Sys2Proof
end

