-- ==== Sys2Proof/WellFormed.lean ====
section
/-! DEFINITION. Which event words have a meaning: the checks of 30_encoding.md R83 on the fields of R80, and the
refusal codes of 60_exceptions.md R203. An `Instr` needs no check of its own: its one operand is one bit wide. -/

namespace Sys2Proof

/-- The fields of an event word (30_encoding.md R80). -/
structure EventFields where
  /-- Bits 7:5, the event kind. -/
  op  : BitVec 3
  /-- Bits 4:1, reserved. -/
  rsv : BitVec 4
  /-- Bit 0, the level for CLK_FALL. -/
  d   : Bit
deriving DecidableEq, Repr

/-- Why a word is refused (60_exceptions.md R203). -/
inductive RefusalCode where
  /-- Code 1: OP = 000. -/
  | opZero
  /-- Code 2: OP = 111. -/
  | opSeven
  /-- Code 3: RSV is not 0, for OP 001 to 110. -/
  | reservedBits
  /-- Code 4: D = 1 with an OP other than 001. -/
  | strayLevel
deriving DecidableEq, Repr

/-- A word's fields have a meaning: none of the four conditions of 30_encoding.md R83 holds. -/
def EventFields.wellFormed (f : EventFields) : Bool :=
  f.op != 0b000#3 && f.op != 0b111#3 && f.rsv == 0#4 && (f.op == 0b001#3 || f.d == 0#1)

end Sys2Proof
end

