-- ==== Sys2Proof/Decode.lean ====
section
/-! DEFINITION. From event words to events (30_encoding.md R80 to R85), total on all 256 words, and back. -/

namespace Sys2Proof

/-- The fields of a word: OP[7:5], RSV[4:1], D[0] (30_encoding.md R80). -/
def fieldsOf (w : EventWord) : EventFields :=
  { op := w.extractLsb' 5 3, rsv := w.extractLsb' 1 4, d := w.extractLsb' 0 1 }

/-- The number the spec gives a refusal code (60_exceptions.md R203). -/
def RefusalCode.code : RefusalCode → Nat
  | .opZero       => 1
  | .opSeven      => 2
  | .reservedBits => 3
  | .strayLevel   => 4

/-- The lowest refusal code that applies to a word's fields, or none for a defined word
(30_encoding.md R83; 60_exceptions.md R203: "the lowest code is recorded"). -/
def EventFields.refusal? (f : EventFields) : Option RefusalCode :=
  if f.op = 0b000#3 then some .opZero
  else if f.op = 0b111#3 then some .opSeven
  else if f.rsv ≠ 0#4 then some .reservedBits
  else if f.op ≠ 0b001#3 ∧ f.d = 1#1 then some .strayLevel
  else none

/-- The event of an OP that 30_encoding.md R81 defines, with the level for CLK_FALL (R82). -/
def eventOf (op : BitVec 3) (d : Bit) : Option Instr :=
  if op = 0b001#3 then some (.clkFall d)
  else if op = 0b010#3 then some .clkRise
  else if op = 0b011#3 then some .tick
  else if op = 0b100#3 then some .poll
  else if op = 0b101#3 then some .trig
  else if op = 0b110#3 then some .reset
  else none

/-- The event a word stands for, or the code it is refused with (30_encoding.md R81, R83). The last branch is
never taken: `eventOf_of_wellFormed` in Laws/Decode.lean. -/
def decode (w : EventWord) : Except RefusalCode Instr :=
  match (fieldsOf w).refusal? with
  | some c => .error c
  | none =>
    match eventOf (fieldsOf w).op (fieldsOf w).d with
    | some i => .ok i
    | none   => .error .opZero

/-- The OP field of an event (30_encoding.md R81). -/
def opOf : Instr → BitVec 3
  | .clkFall _ => 0b001#3
  | .clkRise   => 0b010#3
  | .tick      => 0b011#3
  | .poll      => 0b100#3
  | .trig      => 0b101#3
  | .reset     => 0b110#3

/-- The D field of an event: the level of CLK_FALL, and 0 for every other kind (30_encoding.md R80). -/
def levelOf : Instr → Bit
  | .clkFall d => d
  | .clkRise | .tick | .poll | .trig | .reset => 0#1

/-- The word of an event: OP, four reserved zeros, D (30_encoding.md R80, R81). -/
def encode (i : Instr) : EventWord :=
  opOf i ++ 0#4 ++ levelOf i

/-- The word of which bit 0 is bit 0 of `w`, from the lowest `nbits` bits of `w`; an event word is 8 bits
(30_encoding.md R85), so the bits above are no part of it. -/
def tableWord (nbits w : Nat) : EventWord :=
  BitVec.ofNat 8 (w % 2 ^ nbits)

/-- What the decoder reads from an instruction whose bits are `w`, numbered as spec/opcode_table.json numbers them. -/
def decodeTableWord (nbits w : Nat) : Option Instr :=
  (decode (tableWord nbits w)).toOption

end Sys2Proof
end

