-- ==== Sys2Proof/Machine/State.lean ====
section
/-! DEFINITION. The state of VINCA-RX: the registers of 10_state.md R20 and the output log of R33 (`Block`), and beside
them the model's own three fields (`State`). Plain data throughout. -/

namespace Sys2Proof.Machine

/-- The unit of a measurement: the DEC_UNIT bit, 0 = mm and 1 = inch (10_state.md R20, 30_encoding.md R72). -/
inductive LengthUnit where
  | mm
  | inch
deriving DecidableEq, Repr

/-- A decoded measurement, held exactly (10_state.md R27, 00_scope.md R15). -/
structure Measurement where
  unit      : LengthUnit
  /-- The sign flag: true = 1 = negative (30_encoding.md R73). -/
  sign      : Bool
  /-- The magnitude, in counts. -/
  magnitude : Magnitude
deriving DecidableEq, Repr

/-- One record handed to the sinks (10_state.md R33). -/
inductive Record where
  /-- BCAST(text): one automatic update. -/
  | bcast (text : Text)
  /-- REPLAY(text): one user-triggered replay. -/
  | replay (text : Text)
  /-- REPLAY_EMPTY: an accepted trigger before any decode, when EMPTY_REPLAY = EMIT_EMPTY. -/
  | replayEmpty
deriving DecidableEq, Repr

/-- The registers of 10_state.md R20, each under its own name, and the log OUT of R33. -/
structure Block where
  /-- RAW, the shift accumulator (10_state.md R21). -/
  raw      : Packet
  /-- READY, the mailbox slot (10_state.md R22). -/
  ready    : Packet
  /-- RDY, the packet-ready flag (10_state.md R23). -/
  rdy      : Bool
  /-- LAST_T, the time of the previous falling edge (10_state.md R24). -/
  lastT    : Time
  /-- NOW, the elapsed-time counter in ms (10_state.md R25). -/
  now      : Time
  /-- LAST_PKT, the last packet the consumer accepted (10_state.md R26). -/
  lastPkt  : Packet
  /-- DEC_VALID, a measurement has been decoded since reset (10_state.md R27). -/
  decValid : Bool
  /-- DEC_UNIT (10_state.md R27). -/
  decUnit  : LengthUnit
  /-- DEC_SIGN (10_state.md R27). -/
  decSign  : Bool
  /-- DEC_MAG (10_state.md R27). -/
  decMag   : Magnitude
  /-- LAST_TRIG, the time of the last accepted user trigger (10_state.md R28). -/
  lastTrig : Time
  /-- REFUSED, the mark that an event word was refused (10_state.md R29). -/
  refused  : Bool
  /-- OUT, the records handed to the sinks, oldest first (10_state.md R33). -/
  out      : List Record
deriving DecidableEq, Repr

/-- The state: the spec's registers and log, and the model's own fields. -/
structure State extends Block where
  /-- The event words not yet seen, oldest first: the input of the run (10_state.md R20, R30). Log entry 1. -/
  pending  : List EventWord
  /-- The code recorded with each refusal, oldest first (60_exceptions.md R203). Log entry 4. -/
  refusals : List RefusalCode
  /-- The OPEN parameters, which no event changes (00_scope.md R8). Log entry 5. -/
  params   : Config.Params
deriving DecidableEq, Repr

/-- Why the machine stops with a fault: there is no reason. The block raises no exception, "No event, with any
operand, in any state, faults" (60_exceptions.md R200, R201), so the type has no constructor. -/
inductive Fault
deriving DecidableEq, Repr

/-- Why an event has no meaning in the model. -/
inductive Refusal where
  /-- Raised only by an arm of `exec` for an event whose meaning is not written; no arm raises it now. Safe: the run
  stops. (A word 30_encoding.md R83 refuses does not end here: 60_exceptions.md R203 gives it a next state.) -/
  | notModelled (mnemonic : String)
deriving DecidableEq, Repr

/-- Every register 0 and OUT empty: the table of 10_state.md R37 at the start of a run. -/
def Block.powerOn : Block :=
  { raw := 0#32, ready := 0#32, rdy := false, lastT := 0#32, now := 0#32, lastPkt := 0#32
    decValid := false, decUnit := .mm, decSign := false, decMag := 0#20, lastTrig := 0#32
    refused := false, out := [] }

/-- The start of a run under given parameters (70_reset_and_hazards.md R231): nothing has arrived and nothing has
been refused (DESIGN CHOICE, log entries 1 and 4). -/
def State.resetWith (p : Config.Params) : State :=
  { Block.powerOn with pending := [], refusals := [], params := p }

/-- The machine right after reset (10_state.md R37), its OPEN parameters uninterpreted (log entry 5). -/
def State.reset : State :=
  State.resetWith Config.startup

end Sys2Proof.Machine
end

