-- ==== Sys2Proof/Machine/Operands.lean ====
section
/-! DEFINITION. The operand forms. There is one: the level of CLK_FALL, which carries the inverted data bit
(30_encoding.md R82, R70). -/

namespace Sys2Proof.Machine

/-- The data bit of a sampled level: "b = 1 - level" (30_encoding.md R70). -/
def dataBit (level : Bit) : Bit :=
  1#1 - level

/-- The level the device sends for a data bit: the same inversion (30_encoding.md R87, BIT b). -/
def levelFor (b : Bit) : Bit :=
  1#1 - b

end Sys2Proof.Machine
end

