-- ==== Sys2Proof/Machine/Datapath.lean ====
section
/-! DEFINITION. The decode datapath: the 24-bit reversal, DECODE, FRAME and the exact scaling
(30_encoding.md R71 to R76, 41_decode.md R135 to R138). -/

namespace Sys2Proof.Machine

/-- The unit of packet bit 0: 0 = mm, 1 = inch (30_encoding.md R72). -/
def LengthUnit.ofBit (b : Bool) : LengthUnit :=
  if b then .inch else .mm

/-- The packet bit of a unit (30_encoding.md R72). -/
def LengthUnit.bit : LengthUnit → Bool
  | .mm   => false
  | .inch => true

/-- rev_24: bits 23 to 0 in reverse order; "bits above position 23 are not part of the output"
(00_scope.md R11). -/
def rev24 (v : Packet) : FrameBits :=
  (v.setWidth Config.frameBits).reverse

/-- The mask that clears the sign and unit flags (41_decode.md R135). -/
def flagMask : Packet :=
  0xFFFFFFF0#32

/-- MAG: the reversal of the masked low 24 bits, of which bits 19 to 0 are kept (30_encoding.md R74,
41_decode.md R135). -/
def magnitudeOf (p : Packet) : Magnitude :=
  (rev24 (p &&& flagMask)).setWidth Config.magBits

/-- DECODE(p): unit from bit 0, sign from bit 3, magnitude (41_decode.md R135). Total: every packet decodes
(30_encoding.md R77). -/
def decodePacket (p : Packet) : Measurement :=
  { unit := LengthUnit.ofBit (p.getLsbD Config.unitBit)
    sign := p.getLsbD Config.signBit
    magnitude := magnitudeOf p }

/-- FRAME(m, s, u) = rev_24(zext_24(m)) | (s << 3) | u, in a 32-bit packet (30_encoding.md R76). -/
def framePacket (x : Measurement) : Packet :=
  (rev24 (x.magnitude.setWidth 32)).setWidth 32
    ||| ((BitVec.ofBool x.sign).setWidth 32 <<< Config.signBit)
    ||| (BitVec.ofBool x.unit.bit).setWidth 32

/-- The ten-thousandths of the unit in one count (41_decode.md R138). -/
def LengthUnit.resolution : LengthUnit → Nat
  | .mm   => Config.resMm
  | .inch => Config.resIn

/-- V(u, m): the exact scaled value, in ten-thousandths of the unit (41_decode.md R138). -/
def scaledValue (u : LengthUnit) (m : Magnitude) : Nat :=
  m.toNat * u.resolution

end Sys2Proof.Machine
end

