-- ==== Sys2Proof/Machine/Flags.lean ====
section
/-! DEFINITION. The block's one flag, RDY (10_state.md R23): set on publish, cleared on acknowledge. -/

namespace Sys2Proof.Machine

/-- Signal "packet ready": RDY <- 1. A flag counts nothing, so it stays 1 where it was 1 (10_state.md R23). -/
def Block.signalReady (b : Block) : Block :=
  { b with rdy := true }

/-- Acknowledge: RDY <- 0 (10_state.md R23, 41_decode.md R131 step 1). -/
def Block.acknowledge (b : Block) : Block :=
  { b with rdy := false }

/-- A POLL accepts: RDY = 1 and READY differs from LAST_PKT in any of the 32 bits (41_decode.md R130, R131;
92_eei_decisions.md D9). -/
def Block.pollAccepts (b : Block) : Bool :=
  b.rdy && b.ready != b.lastPkt

end Sys2Proof.Machine
end

