-- ==== Sys2Proof/Machine/Ops.lean ====
section
/-! DEFINITION. The named operations over the registers, each one atomic update, which the meanings are made of; taking
the next event word; and the refusal of an undefined word, the block's counterpart of taking an exception
(60_exceptions.md R203). It has no return (R207). -/

namespace Sys2Proof.Machine

/-- The elapsed time between two timestamps, modulo 2^W (40_capture.md R100, 92_eei_decisions.md D24). -/
def elapsed (since now : Time) : Time :=
  now - since

/-- NEWFRAME(last, t, G): strictly more than G ms have passed (40_capture.md R100). -/
def newFrame (last t gap : Time) : Bool :=
  decide (gap < elapsed last t)

/-- A trigger is accepted: strictly more than DEBOUNCE_MS since the last accepted one (42_trigger.md R170, R171). -/
def debounced (last t : Time) : Bool :=
  decide (Config.debounceMs < elapsed last t)

/-- ((RAW << 1) | b) mod 2^32 (40_capture.md R101 step 4). -/
def shiftIn (raw : Packet) (bit : Bit) : Packet :=
  (raw <<< 1) ||| bit.setWidth 32

/-- The mid-frame case: the new bit is shifted into RAW (40_capture.md R101 step 4). -/
def Block.shiftBit (bit : Bit) (b : Block) : Block :=
  { b with raw := shiftIn b.raw bit }

/-- The publish, one atomic step: READY <- RAW whole, RAW <- the new bit alone, RDY <- 1 (40_capture.md R101 step 3,
R102; 20_memory.md R53). -/
def Block.publish (bit : Bit) (b : Block) : Block :=
  Block.signalReady { b with ready := b.raw, raw := bit.setWidth 32 }

/-- LAST_T <- NOW (40_capture.md R101 step 5). -/
def Block.stampEdge (b : Block) : Block :=
  { b with lastT := b.now }

/-- NOW <- (NOW + TICK_MS) mod 2^W (40_capture.md R104). -/
def Block.advanceTime (b : Block) : Block :=
  { b with now := b.now + Config.tickMs }

/-- The retained measurement (10_state.md R27). -/
def Block.measurement (b : Block) : Measurement :=
  { unit := b.decUnit, sign := b.decSign, magnitude := b.decMag }

/-- Remember a consumed packet and its measurement: LAST_PKT, DEC_UNIT, DEC_SIGN, DEC_MAG, DEC_VALID
(41_decode.md R131). -/
def Block.consume (p : Packet) (b : Block) : Block :=
  { b with
    lastPkt := p
    decValid := true
    decUnit := (decodePacket p).unit
    decSign := (decodePacket p).sign
    decMag := (decodePacket p).magnitude }

/-- emit(record): append to OUT (00_scope.md R12, 10_state.md R33). -/
def Block.emit (r : Record) (b : Block) : Block :=
  { b with out := b.out ++ [r] }

/-- LAST_TRIG <- NOW (42_trigger.md R171). -/
def Block.stampTrigger (b : Block) : Block :=
  { b with lastTrig := b.now }

/-- The RESET event's writes: every register to its value of 10_state.md R37, but REFUSED and OUT are kept
(70_reset_and_hazards.md R230). -/
def Block.clear (b : Block) : Block :=
  { Block.powerOn with refused := b.refused, out := b.out }

/-- An event changes the spec's registers and nothing else. -/
def State.onBlock (f : Block → Block) (s : State) : State :=
  { s with toBlock := f s.toBlock }

/-- The next event word and the state that has seen it, or none where no event is left. Log entry 1. -/
def State.nextWord? (s : State) : Option (EventWord × State) :=
  match s.pending with
  | []      => none
  | w :: ws => some (w, { s with pending := ws })

/-- No event is left: the block "waits for its next event" (20_memory.md R62), and waiting changes nothing.
DESIGN CHOICE, safe: log entry 2. -/
def State.wait (s : State) : State :=
  s

/-- The refusal of an undefined word: REFUSED <- 1 and its code recorded, no other register changed, nothing emitted
(60_exceptions.md R203). A next state, because the run goes on: log entry 3. -/
def State.refuse (c : RefusalCode) (s : State) : State :=
  { s with refused := true, refusals := s.refusals ++ [c] }

end Sys2Proof.Machine
end

