-- ==== Sys2Proof/Machine/Capture.lean ====
section
/-! DEFINITION. The capture events CLK_FALL, CLK_RISE and TICK (40_capture.md). -/

namespace Sys2Proof.Machine

/-- One falling edge: the framing decision on the old LAST_T, publish or shift, then LAST_T <- NOW
(40_capture.md R101). -/
def Block.fallingEdge (gap : Time) (d : Bit) (b : Block) : Block :=
  Block.stampEdge
    (if newFrame b.lastT b.now gap then b.publish (dataBit d) else b.shiftBit (dataBit d))

/-- CLK_FALL d (40_capture.md R101). -/
def execClkFall (d : Bit) (s : State) : Host.Outcome State Fault Refusal :=
  .next (s.onBlock (Block.fallingEdge s.params.gapMs d))

/-- CLK_RISE: skip (40_capture.md R103, 30_encoding.md R84). -/
def execClkRise (s : State) : Host.Outcome State Fault Refusal :=
  .next s

/-- TICK (40_capture.md R104). -/
def execTick (s : State) : Host.Outcome State Fault Refusal :=
  .next (s.onBlock Block.advanceTime)

end Sys2Proof.Machine
end

