-- ==== Sys2Proof/Machine/Render.lean ====
section
/-! DEFINITION. TEXT, the output string of a measurement (41_decode.md R141), over dec and dec4 of 00_scope.md R13. -/

namespace Sys2Proof.Machine

/-- dec(n): the decimal spelling, no leading zeros, "0" for zero (00_scope.md R13). -/
def dec (n : Nat) : Text :=
  Nat.toDigits 10 n

/-- dec4(n) for n < 10000: exactly four digits, padded with leading zeros (00_scope.md R13). -/
def dec4 (n : Nat) : Text :=
  [Nat.digitChar (n / 1000 % 10), Nat.digitChar (n / 100 % 10), Nat.digitChar (n / 10 % 10), Nat.digitChar (n % 10)]

/-- The leading sign: "-" when SIGN = 1, whatever the magnitude, and no "+" (41_decode.md R140, R141). -/
def signText (sign : Bool) : Text :=
  if sign then ['-'] else []

/-- The suffix of a unit (30_encoding.md R72). -/
def LengthUnit.suffix : LengthUnit → Text
  | .mm   => ['m', 'm']
  | .inch => ['"']

/-- TEXT(u, s, m) (41_decode.md R141). -/
def textOf (x : Measurement) : Text :=
  signText x.sign
    ++ dec (scaledValue x.unit x.magnitude / Config.unitScale)
    ++ ['.']
    ++ dec4 (scaledValue x.unit x.magnitude % Config.unitScale)
    ++ x.unit.suffix
    ++ ['\n']

end Sys2Proof.Machine
end

