-- ==== Sys2Proof/Machine/Consumer.lean ====
section
/-! DEFINITION. The consumer event POLL (41_decode.md). -/

namespace Sys2Proof.Machine

/-- One iteration of the decode loop: an accepting POLL acknowledges, remembers, decodes and emits BCAST; any other
changes nothing, RDY included (41_decode.md R131, R132). -/
def Block.decodeLoop (b : Block) : Block :=
  if b.pollAccepts then
    (b.acknowledge.consume b.ready).emit (.bcast (textOf (decodePacket b.ready)))
  else b

/-- POLL (41_decode.md R131). -/
def execPoll (s : State) : Host.Outcome State Fault Refusal :=
  .next (s.onBlock Block.decodeLoop)

end Sys2Proof.Machine
end

