-- ==== Sys2Proof/Machine/ResetEvent.lean ====
section
/-! DEFINITION. The RESET event (70_reset_and_hazards.md). -/

namespace Sys2Proof.Machine

/-- RESET (70_reset_and_hazards.md R230). -/
def execReset (s : State) : Host.Outcome State Fault Refusal :=
  .next (s.onBlock Block.clear)

end Sys2Proof.Machine
end

