-- ==== Sys2Proof/Machine/Trigger.lean ====
section
/-! DEFINITION. The user trigger TRIG and its 500 ms rate limiter (42_trigger.md). -/

namespace Sys2Proof.Machine

/-- The records an accepted trigger emits: the replay of the retained measurement, or what EMPTY_REPLAY says before
any decode (42_trigger.md R171, R174). -/
def Block.replay (empty : Config.EmptyReplay) (b : Block) : Block :=
  if b.decValid then b.emit (.replay (textOf b.measurement))
  else
    match empty with
    | .emitEmpty => b.emit .replayEmpty
    | .suppress  => b

/-- One user trigger: accepted, it moves LAST_TRIG and replays; dropped, it changes nothing (42_trigger.md R171). -/
def Block.trigger (empty : Config.EmptyReplay) (b : Block) : Block :=
  if debounced b.lastTrig b.now then b.stampTrigger.replay empty else b

/-- TRIG (42_trigger.md R171). -/
def execTrig (s : State) : Host.Outcome State Fault Refusal :=
  .next (s.onBlock (Block.trigger s.params.emptyReplay))

end Sys2Proof.Machine
end

