-- ==== Sys2Proof/Machine/Dispatch.lean ====
section
/-! DEFINITION. One arm per event: each calls the event's meaning. -/

namespace Sys2Proof.Machine

def exec (i : Instr) (s : State) : Host.Outcome State Fault Refusal :=
  match i with
  | .clkFall d => Sys2Proof.Machine.execClkFall d s
  | .clkRise => Sys2Proof.Machine.execClkRise s
  | .tick => Sys2Proof.Machine.execTick s
  | .poll => Sys2Proof.Machine.execPoll s
  | .trig => Sys2Proof.Machine.execTrig s
  | .reset => Sys2Proof.Machine.execReset s

end Sys2Proof.Machine
end

