-- ==== Sys2Proof/Machine/Step.lean ====
section
/-! DEFINITION. One step of the machine: one event word, one indivisible step (20_memory.md R52, 30_encoding.md R85). -/

namespace Sys2Proof.Machine

/-- Take the next event word; run the event it decodes to, or refuse it (60_exceptions.md R201); wait where there is
none. -/
def step (s : State) : Host.Outcome State Fault Refusal :=
  match s.nextWord? with
  | none        => .next s.wait
  | some (w, t) =>
    match decode w with
    | .ok i    => exec i t
    | .error c => .next (t.refuse c)

/-- `s` with the event word of `w` put before the words still pending, where step takes its next word (log entry 6). -/
def State.withFetchWord (s : State) (nbits w : Nat) : State :=
  { s with pending := tableWord nbits w :: s.pending }

end Sys2Proof.Machine
end

