-- ==== Sys2Proof/Machine/Sinks.lean ====
section
/-! DEFINITION. What the sinks make of one record (42_trigger.md R172, R174, R175; 41_decode.md R144, R146). It is a
pure function beside the machine: no sink outcome changes a register (20_memory.md R65). -/

namespace Sys2Proof.Machine

/-- The outputs of one record. The order in which they are delivered is outside the block (42_trigger.md R172), so
this is a record of two parts and no sequence. Log entry 7. -/
structure Delivery where
  /-- The text broadcast to the listeners. -/
  broadcast  : Text
  /-- The text emitted as keystrokes, where any are. -/
  keystrokes : Option Text
deriving DecidableEq, Repr

/-- An automatic update has no "*" and no keystrokes (41_decode.md R144); a replay is broadcast with "*" and, when
KEYS_CAPABLE, typed without it (42_trigger.md R172); an empty replay is "*" alone and no keystrokes (R174). -/
def deliver (keysCapable : Bool) : Record → Delivery
  | .bcast t     => { broadcast := t, keystrokes := none }
  | .replay t    => { broadcast := '*' :: t, keystrokes := if keysCapable then some t else none }
  | .replayEmpty => { broadcast := ['*'], keystrokes := none }

/-- The deliveries of the whole log, in the order of OUT, under the machine's KEYS_CAPABLE (42_trigger.md R175). -/
def State.deliveries (s : State) : List Delivery :=
  s.out.map (deliver s.params.keysCapable)

end Sys2Proof.Machine
end

