-- ==== Sys2Proof/Machine/TraceText.lean ====
section
/-! DEFINITION. The written form of an event trace: one event a line, text after ";" a comment (30_encoding.md R86).
It is notation; no event reads it. -/

namespace Sys2Proof.Machine

/-- The line of an event: its mnemonic, and for CLK_FALL its level as 0 or 1 (30_encoding.md R86). -/
def traceLine : Instr → Text
  | .clkFall d => "CLK_FALL ".toList ++ [if d = 1#1 then '1' else '0']
  | .clkRise   => "CLK_RISE".toList
  | .tick      => "TICK".toList
  | .poll      => "POLL".toList
  | .trig      => "TRIG".toList
  | .reset     => "RESET".toList

/-- A line without its comment and without blanks at its ends. -/
def lineBody (line : Text) : Text :=
  (((line.takeWhile (· != ';')).dropWhile (· == ' ')).reverse.dropWhile (· == ' ')).reverse

/-- The event a line names, or none where it names none. -/
def traceEvent? (line : Text) : Option Instr :=
  [.clkFall 0#1, .clkFall 1#1, .clkRise, .tick, .poll, .trig, .reset].find? fun i => traceLine i == lineBody line

/-- The events of a trace's lines in order, lines that hold only a comment passed over; none where some other line
names no event. -/
def readTrace : List Text → Option (List Instr)
  | [] => some []
  | line :: lines =>
    if lineBody line = [] then readTrace lines
    else
      match traceEvent? line, readTrace lines with
      | some i, some is => some (i :: is)
      | _, _            => none

end Sys2Proof.Machine
end

