-- ==== Sys2Proof/Machine/Trace.lean ====
section
/-! DEFINITION. Sequences of events: the left fold of the event rules (20_memory.md R56) and the pseudo-events of
30_encoding.md R87, which are notation for event lists and no events of the block. -/

namespace Sys2Proof.Machine

/-- The events of a list, one after another (20_memory.md R56). -/
def runEvents : List Instr → State → Host.Outcome State Fault Refusal
  | [], s => .next s
  | i :: is, s =>
    match exec i s with
    | .next t    => runEvents is t
    | .fault r   => .fault r
    | .refused r => .refused r

/-- WAIT n: n copies of TICK. -/
def waitEvents (n : Nat) : List Instr :=
  List.replicate n .tick

/-- GAP: WAIT G+1. -/
def gapEvents (g : Time) : List Instr :=
  waitEvents (g.toNat + 1)

/-- BIT b: CLK_FALL (1-b), then CLK_RISE. -/
def bitEvents (b : Bit) : List Instr :=
  [.clkFall (levelFor b), .clkRise]

/-- BITS n, v: the n low bits of v, high bit first, with no TICK between. -/
def bitsEvents : Nat → Packet → List Instr
  | 0, _     => []
  | n + 1, v => bitEvents (v.extractLsb' n 1) ++ bitsEvents n v

/-- FRAME p: BITS 24, p. -/
def frameEvents (p : Packet) : List Instr :=
  bitsEvents Config.frameBits p

/-- MEAS m, s, u: the frame of a measurement (30_encoding.md R76). -/
def measEvents (x : Measurement) : List Instr :=
  frameEvents (framePacket x)

end Sys2Proof.Machine
end

