-- ==== Sys2Proof/Safety.lean ====
section
/-! DEFINITION. The terms the claims use: what a good state is, what a sequence of events contains, what an output
text says. No meaning of an event depends on this file. -/

namespace Sys2Proof.Safety

open Sys2Proof Sys2Proof.Machine

/-- Items 1 to 3 of the invariants of 10_state.md R36. Item 4 is about a count of edges: `edgesSincePublish`. -/
structure Consistent (b : Block) : Prop where
  /-- RDY = 0 implies READY = LAST_PKT. -/
  mailbox_empty : b.rdy = false → b.ready = b.lastPkt
  /-- DEC_VALID = 0 implies LAST_PKT = 0 and the three other DEC registers 0. -/
  never_decoded : b.decValid = false →
    b.lastPkt = 0#32 ∧ b.decUnit = .mm ∧ b.decSign = false ∧ b.decMag = 0#20
  /-- DEC_VALID = 1 implies that the retained measurement is the decoded LAST_PKT. -/
  decoded : b.decValid = true → b.measurement = decodePacket b.lastPkt

/-- The text of an automatic update, for a record that is one. -/
def bcastText? : Record → Option Text
  | .bcast t    => some t
  | .replay _   => none
  | .replayEmpty => none

/-- The texts of the automatic updates in a log, oldest first. -/
def bcasts (out : List Record) : List Text :=
  out.filterMap bcastText?

/-- The number of replay records, empty ones included, in a log. -/
def replays (out : List Record) : Nat :=
  out.countP fun r => (bcastText? r).isNone

/-- The retained measurement is the one last broadcast (41_decode.md R145). -/
def RetainedIsLastBroadcast (b : Block) : Prop :=
  b.decValid = true → (bcasts b.out).getLast? = some (textOf b.measurement)

/-- The elapsed time a falling edge sees, over the integers and then modulo 2^W (00_scope.md R11). -/
def edgeGap (b : Block) : Nat :=
  (b.now.toNat + 2 ^ 32 - b.lastT.toNat) % 2 ^ 32

/-- The elapsed time a trigger sees, in the same terms. -/
def triggerGap (b : Block) : Nat :=
  (b.now.toNat + 2 ^ 32 - b.lastTrig.toNat) % 2 ^ 32

/-- A falling edge now would start a new frame: more than GAP_MS since the previous edge (40_capture.md R100). -/
abbrev EdgeIsLate (s : State) : Prop :=
  s.params.gapMs.toNat < edgeGap s.toBlock

/-- A trigger now would be accepted: more than 500 ms since the last accepted one (42_trigger.md R171). -/
abbrev TriggerIsDue (b : Block) : Prop :=
  500 < triggerGap b

/-- A POLL now would accept (41_decode.md R130). -/
abbrev PollIsDue (b : Block) : Prop :=
  b.rdy = true ∧ b.ready ≠ b.lastPkt

/-- The event is a falling edge. -/
def isEdge : Instr → Bool
  | .clkFall _ => true
  | .clkRise | .tick | .poll | .trig | .reset => false

/-- The number of TICKs in a sequence. -/
def ticks (es : List Instr) : Nat :=
  es.count .tick

/-- The number of falling edges in a sequence. -/
def edges (es : List Instr) : Nat :=
  es.countP isEdge

/-- The number that the data bits of a sequence's falling edges spell, the last bit at bit 0 (20_memory.md R51),
from a number already received. -/
def received : List Instr → Nat → Nat
  | [], n => n
  | .clkFall d :: es, n => received es (2 * n + (1 - d.toNat))
  | .clkRise :: es, n | .tick :: es, n | .poll :: es, n | .trig :: es, n | .reset :: es, n => received es n

/-- Every falling edge of the sequence finds NEWFRAME false, each at the state the events before it left
(40_capture.md R107). -/
def noLateEdge : List Instr → State → Bool
  | [], _ => true
  | i :: is, s =>
    (!isEdge i || decide (¬ EdgeIsLate s)) &&
      match exec i s with
      | .next t               => noLateEdge is t
      | .fault _ | .refused _ => true

/-- The count of falling edges since the last publish, after one event: 1 at a publishing edge, which counts itself,
one more at any other edge, 0 at RESET. -/
def edgeCountAfter (i : Instr) (s : State) (n : Nat) : Nat :=
  match i with
  | .clkFall _ => if s.params.gapMs.toNat < edgeGap s.toBlock then 1 else n + 1
  | .reset     => 0
  | .clkRise | .tick | .poll | .trig => n

/-- The number of falling edges since the last publish, the publishing edge counted, or since the last RESET
(10_state.md R36 item 4), after a sequence that starts with `n` such edges behind it. -/
def edgesSincePublish : List Instr → State → Nat → Nat
  | [], _, n => n
  | i :: is, s, n =>
    match exec i s with
    | .next t                => edgesSincePublish is t (edgeCountAfter i s n)
    | .fault _ | .refused _ => n

/-- What an output text says, read back without the functions that write it. -/
structure Reading where
  /-- The text starts with "-". -/
  negative       : Bool
  /-- The number it spells, in ten-thousandths of the unit. -/
  tenThousandths : Nat
  unit           : LengthUnit
deriving DecidableEq, Repr

/-- The value of a decimal digit. -/
def readDigit (c : Char) : Option Nat :=
  if 48 ≤ c.toNat ∧ c.toNat ≤ 57 then some (c.toNat - 48) else none

/-- The number that decimal digits spell after the number `n`. -/
def readDigits : Text → Nat → Option Nat
  | [], n => some n
  | c :: cs, n =>
    match readDigit c with
    | some d => readDigits cs (10 * n + d)
    | none   => none

/-- The number a non-empty row of digits spells, with no leading zero unless it is "0" alone (00_scope.md R13). -/
def readNumber : Text → Option Nat
  | [] => none
  | [c] => readDigits [c] 0
  | c :: d :: cs => if c = '0' then none else readDigits (c :: d :: cs) 0

/-- The unit of a text's end, its line feed included (41_decode.md R141). -/
def readUnit : Text → Option LengthUnit
  | ['m', 'm', '\n'] => some .mm
  | ['"', '\n']      => some .inch
  | _                => none

/-- The reading of a text after its sign: digits, a point, four digits, the unit and a line feed. -/
def readUnsigned (negative : Bool) (t : Text) : Option Reading :=
  match t.dropWhile (· != '.') with
  | '.' :: a :: b :: c :: d :: rest =>
    match readNumber (t.takeWhile (· != '.')), readDigits [a, b, c, d] 0, readUnit rest with
    | some n, some f, some u => some { negative := negative, tenThousandths := 10000 * n + f, unit := u }
    | _, _, _ => none
  | _ => none

/-- The reading of an output text, in the format "<sign><digits>.<4 digits><unit>\n" (41_decode.md R141). -/
def readText : Text → Option Reading
  | '-' :: t => readUnsigned true t
  | t        => readUnsigned false t

end Sys2Proof.Safety
end

