-- ==== Sys2Proof/Certificates/Slice0/Obligations.lean ====
section
/-! DEFINITION. The statements for the provers. `t.toBlock` is the spec's registers (10_state.md R20) and the log OUT
(R33) after an event; the model's own three fields are spoken of only where a docstring says so. The integers in the
statements are those of 00_scope.md R11, written out so that a statement does not lean on the model's own operations. -/

open Sys2Proof Sys2Proof.Machine Sys2Proof.Safety

/-! ## The event word -/

/-- 30_encoding.md R81: the seven defined words, each written out from its bits OP[7:5] RSV[4:1] D[0]. -/
def Obligations.SpecWordsDecode : Prop :=
  decode 0b00100000#8 = .ok (.clkFall 0#1) ∧ decode 0b00100001#8 = .ok (.clkFall 1#1) ∧
  decode 0b01000000#8 = .ok .clkRise ∧ decode 0b01100000#8 = .ok .tick ∧ decode 0b10000000#8 = .ok .poll ∧
  decode 0b10100000#8 = .ok .trig ∧ decode 0b11000000#8 = .ok .reset

/-- 30_encoding.md R81: each row of the opcode map, by its match and mask, with the operand at bit 0 and the two
reserved OP values refused. -/
def Obligations.OpcodeMapIsExact : Prop :=
  ∀ w : EventWord,
    (∀ d, decode w = .ok (.clkFall d) ↔ w &&& 0xFE#8 = 0x20#8 ∧ d.toNat = w.toNat % 2) ∧
    (decode w = .ok .clkRise ↔ w &&& 0xFF#8 = 0x40#8) ∧
    (decode w = .ok .tick ↔ w &&& 0xFF#8 = 0x60#8) ∧
    (decode w = .ok .poll ↔ w &&& 0xFF#8 = 0x80#8) ∧
    (decode w = .ok .trig ↔ w &&& 0xFF#8 = 0xA0#8) ∧
    (decode w = .ok .reset ↔ w &&& 0xFF#8 = 0xC0#8) ∧
    (w.toNat ≤ 0x1F ∨ 0xE0 ≤ w.toNat → ∃ c, decode w = .error c)

/-- 30_encoding.md R80, R81, R85: decode inverts encode, and each word has one meaning. -/
def Obligations.DecodeInvertsEncode : Prop :=
  (∀ i : Instr, decode (encode i) = .ok i) ∧ ∀ (w : EventWord) (i : Instr), decode w = .ok i → encode i = w

/-- 30_encoding.md R86: the written line of an event, a comment after it or not, names that event. -/
def Obligations.TraceLineReadsBack : Prop :=
  ∀ (i : Instr) (comment : Text),
    traceEvent? (traceLine i) = some i ∧ traceEvent? (traceLine i ++ [' ', ';'] ++ comment) = some i

/-- 30_encoding.md R83: which words are refused, that exactly seven are defined, and that a refused word has no effect
on the registers beyond the mark REFUSED. That a refusal is a next state is the model's reading, log entry 3. -/
def Obligations.RefusedWordsAreExact : Prop :=
  ∀ w : EventWord,
    ((∃ c, decode w = .error c) ↔
      (w.toNat / 32 = 0 ∨ w.toNat / 32 = 7 ∨ w.toNat / 2 % 16 ≠ 0 ∨ (w.toNat / 32 ≠ 1 ∧ w.toNat % 2 = 1))) ∧
    ((∃ i, decode w = .ok i) ↔ w ∈ [0x20#8, 0x21#8, 0x40#8, 0x60#8, 0x80#8, 0xA0#8, 0xC0#8]) ∧
    ∀ (c : RefusalCode) (s : State) (ws : List EventWord), decode w = .error c → s.pending = w :: ws →
      ∃ t, step s = .next t ∧ t.toBlock = { s.toBlock with refused := true }

/-- 60_exceptions.md R203: a refused word sets REFUSED, changes no other register, emits nothing, and has its reason
recorded by the code of the table, the lowest that applies; REFUSED is never cleared. That a refusal is a next state
is log entry 3, and that the record is the last of a list is log entry 4. -/
def Obligations.RefusalRecordsItsCode : Prop :=
  (∀ (s : State) (w : EventWord) (ws : List EventWord), s.pending = w :: ws →
    let refusedWith : Nat → Prop := fun k =>
      ∃ c t, step s = .next t ∧ t.toBlock = { s.toBlock with refused := true } ∧
        t.refusals.getLast? = some c ∧ c.code = k
    if w.toNat / 32 = 0 then refusedWith 1
    else if w.toNat / 32 = 7 then refusedWith 2
    else if w.toNat / 2 % 16 ≠ 0 then refusedWith 3
    else if w.toNat / 32 ≠ 1 ∧ w.toNat % 2 = 1 then refusedWith 4
    else ∃ i, decode w = .ok i) ∧
  ∀ s t : State, s.refused = true → step s = .next t → t.refused = true

/-- The model's own choice, log entries 1, 4 and 5: a refusal is appended to the list of recorded codes, takes its word
from the input, and leaves the parameters. -/
def Obligations.RefusalLogKeepsEveryCode : Prop :=
  ∀ (s : State) (w : EventWord) (ws : List EventWord) (c : RefusalCode),
    s.pending = w :: ws → decode w = .error c →
      ∃ t, step s = .next t ∧ t.refusals = s.refusals ++ [c] ∧ t.pending = ws ∧ t.params = s.params

/-! ## The step -/

/-- A step runs the event that the next pending word decodes to, at the state that has seen the word
(20_memory.md R52). That the words wait in a list is the model's own, log entry 1. -/
def Obligations.StepRunsTheDecodedEvent : Prop :=
  ∀ (s : State) (w : EventWord) (ws : List EventWord) (i : Instr),
    s.pending = w :: ws → decode w = .ok i → step s = exec i { s with pending := ws }

/-- Where no event is left a step changes nothing: the block "waits for its next event" (20_memory.md R62). The
model's own choice, log entry 2. -/
def Obligations.IdleStepChangesNothing : Prop :=
  ∀ s : State, s.pending = [] → step s = .next s

/-- 60_exceptions.md R200, R201: every event is enabled in every state, and every word has an outcome, which consumes
that word alone. That a refusal is a next state with REFUSED set is log entry 3. -/
def Obligations.EveryWordHasAnOutcome : Prop :=
  (∀ (i : Instr) (s : State), ∃ t, exec i s = .next t) ∧
  ∀ (s : State) (w : EventWord) (ws : List EventWord), s.pending = w :: ws →
    ∃ t, step s = .next t ∧ t.pending = ws ∧
      if w ∈ [0x20#8, 0x21#8, 0x40#8, 0x60#8, 0x80#8, 0xA0#8, 0xC0#8] then t.refused = s.refused
      else t.refused = true

/-- The model's own fields under an event (log entries 1, 4, 5): no event changes a later event
(20_memory.md R63), a recorded refusal, or a parameter (10_state.md R32). -/
def Obligations.EventsLeaveInputAndParameters : Prop :=
  ∀ (i : Instr) (s t : State), exec i s = .next t →
    t.pending = s.pending ∧ t.refusals = s.refusals ∧ t.params = s.params

/-- 20_memory.md R56: stepping through a sequence of event words is the left fold of the event rules over it, and the
words after it are still to come. That the words wait in a list is the model's own, log entry 1. -/
def Obligations.RunIsTheLeftFold : Prop :=
  ∀ (es : List Instr) (ws : List EventWord) (s : State),
    Host.Core.run Sys2Proof.core es.length { s with pending := es.map encode ++ ws } =
      runEvents es { s with pending := ws }

/-! ## Capture -/

/-- 40_capture.md R100: the framing decision, strict, on the difference modulo 2^W, of the two timestamps and the
threshold alone. -/
def Obligations.FramingDecision : Prop :=
  ∀ last t gap : Time,
    newFrame last t gap = true ↔ (t.toNat + 2 ^ 32 - last.toNat) % 2 ^ 32 > gap.toNat

/-- 40_capture.md R101, R102: the result of CLK_FALL d, every register, and its word. -/
def Obligations.ClkFallResult : Prop :=
  ∀ (d : Bit) (s : State),
    encode (.clkFall d) = 0x20#8 ||| d.setWidth 8 ∧
    ∃ t, exec (.clkFall d) s = .next t ∧
      if s.params.gapMs.toNat < edgeGap s.toBlock then
        t.toBlock = { s.toBlock with
          ready := s.raw, raw := BitVec.ofNat 32 (1 - d.toNat), rdy := true, lastT := s.now }
      else
        t.toBlock = { s.toBlock with
          raw := BitVec.ofNat 32 (2 * s.raw.toNat + (1 - d.toNat)), lastT := s.now }

/-- 40_capture.md R103: CLK_RISE gives the state it found, from any state. -/
def Obligations.ClkRiseResult : Prop :=
  encode .clkRise = 0x40#8 ∧ ∀ s : State, exec .clkRise s = .next s

/-- 40_capture.md R104: TICK advances NOW by one modulo 2^W and changes nothing else. -/
def Obligations.TickResult : Prop :=
  encode .tick = 0x60#8 ∧
  ∀ s : State, ∃ t, exec .tick s = .next t ∧
    t.toBlock = { s.toBlock with now := BitVec.ofNat 32 ((s.now.toNat + 1) % 2 ^ 32) }

/-- 40_capture.md R105, with the RESET that R105 passes over (10_state.md R34): only TICK and RESET change NOW, and
between two RESETs NOW advances by the number of TICKs modulo 2^W, whatever else comes between. -/
def Obligations.TimeIsTheTickCount : Prop :=
  (∀ (i : Instr) (s t : State), exec i s = .next t → t.now ≠ s.now → i = .tick ∨ i = .reset) ∧
  ∀ (es : List Instr) (s : State), Instr.reset ∉ es →
    ∃ t, runEvents es s = .next t ∧ t.now.toNat = (s.now.toNat + ticks es) % 2 ^ 32

/-- 40_capture.md R107, for sequences without RESET (which writes 0 to READY and RAW, 10_state.md R34): with no late
edge nothing is published, and RAW holds the bits of the sequence, the last at bit 0. -/
def Obligations.NoPublishWithoutGap : Prop :=
  ∀ (es : List Instr) (s : State), Instr.reset ∉ es → noLateEdge es s = true →
    ∃ t, runEvents es s = .next t ∧ t.ready = s.ready ∧ (s.rdy = false → t.rdy = false) ∧
      t.raw.toNat = received es s.raw.toNat % 2 ^ 32

/-- 40_capture.md R106, for sequences without RESET: the packet published at an edge holds the last min(n, 32) bits
since the last publishing edge, the newest at bit 0 and zeros above, whatever n is. -/
def Obligations.PublishedPacketIsTheRunOfBits : Prop :=
  ∀ (s s' t : State) (d d' : Bit) (es : List Instr),
    EdgeIsLate s → exec (.clkFall d) s = .next s' →
    Instr.reset ∉ es → noLateEdge es s' = true → runEvents es s' = .next t → EdgeIsLate t →
      ∃ u, exec (.clkFall d') t = .next u ∧ u.rdy = true ∧
        u.ready.toNat = received (.clkFall d :: es) 0 % 2 ^ 32 ∧
        u.ready.toNat < 2 ^ edges (.clkFall d :: es) ∧
        u.raw.toNat = 1 - d'.toNat

/-- 30_encoding.md R75: where each received bit of a 24-bit frame lands, and what it means. The frame's first edge is
late, so it starts the frame; no TICK comes between its edges. -/
def Obligations.FrameBitOrder : Prop :=
  ∀ (s : State) (level : Fin 24 → Bit), EdgeIsLate s →
    ∃ t, runEvents ((List.finRange 24).map fun j => .clkFall (level j)) s = .next t ∧
      t.raw.toNat < 2 ^ 24 ∧
      (∀ j : Fin 24, t.raw.getLsbD (23 - j.val) = (level j == 0#1)) ∧
      (∀ j : Fin 24, j.val < 20 → (decodePacket t.raw).magnitude.getLsbD j.val = (level j == 0#1)) ∧
      (decodePacket t.raw).sign = (level 20 == 0#1) ∧
      ((decodePacket t.raw).unit = .inch ↔ level 23 = 0#1)

/-- 30_encoding.md R87, R75: FRAME p, begun by a late edge, leaves p's 24 bits in RAW and publishes what RAW held; its
rising edges change nothing. -/
def Obligations.FrameEventsCaptureThePacket : Prop :=
  ∀ (s : State) (p : Packet), EdgeIsLate s →
    ∃ t, runEvents (frameEvents p) s = .next t ∧
      t.toBlock = { s.toBlock with ready := s.raw, raw := p &&& 0x00FFFFFF#32, rdy := true, lastT := s.now }

/-- 20_memory.md R55: a publish overwrites the mailbox unconditionally, so neither the earlier packet nor the earlier
flag leaves a trace. -/
def Obligations.LatestPacketWins : Prop :=
  ∀ (s : State) (d : Bit) (earlier : Packet) (flag : Bool), EdgeIsLate s →
    ∃ t, exec (.clkFall d) s = .next t ∧ t.ready = s.raw ∧ t.rdy = true ∧
      exec (.clkFall d) { s with ready := earlier, rdy := flag } = .next t

/-- 60_exceptions.md R206: of a TICK and an edge at one instant both orders are admitted, and at an elapsed time of
exactly GAP_MS they differ: the edge after the TICK publishes, the edge before it does not. -/
def Obligations.TickAndEdgeOrderMatters : Prop :=
  ∀ (s : State) (d : Bit), edgeGap s.toBlock = s.params.gapMs.toNat → s.params.gapMs.toNat + 1 < 2 ^ 32 →
    ∃ t u, runEvents [.tick, .clkFall d] s = .next t ∧ runEvents [.clkFall d, .tick] s = .next u ∧
      t.ready = s.raw ∧ t.rdy = true ∧ u.ready = s.ready ∧ u.rdy = s.rdy ∧ t.now = u.now

/-! ## The consumer and the datapath -/

/-- 41_decode.md R131: the result of POLL, every register, and its word. -/
def Obligations.PollResult : Prop :=
  encode .poll = 0x80#8 ∧
  ∀ s : State, ∃ t, exec .poll s = .next t ∧
    let x : Measurement :=
      { unit := if s.ready.getLsbD 0 then .inch else .mm
        sign := s.ready.getLsbD 3
        magnitude := (s.ready.extractLsb' 4 20).reverse }
    if s.rdy = true ∧ s.ready ≠ s.lastPkt then
      t.toBlock = { s.toBlock with
        rdy := false, lastPkt := s.ready, decValid := true, decUnit := x.unit, decSign := x.sign
        decMag := x.magnitude, out := s.out ++ [.bcast (textOf x)] }
    else t.toBlock = s.toBlock

/-- 41_decode.md R132: non-accepting POLLs change no register and emit nothing, any number of them. -/
def Obligations.NonAcceptingPollsChangeNothing : Prop :=
  ∀ (s : State) (n : Nat), ¬ PollIsDue s.toBlock → runEvents (List.replicate n .poll) s = .next s

/-- 41_decode.md R134: with no further CLK_FALL (and no RESET) at most one POLL accepts, the first one, and exactly one
where the ready packet differs from LAST_PKT. -/
def Obligations.DecodeExactlyOnce : Prop :=
  (∀ s t : State, exec .poll s = .next t → ¬ PollIsDue t.toBlock) ∧
  ∀ (es : List Instr) (s : State), edges es = 0 → Instr.reset ∉ es →
    ∃ t, runEvents es s = .next t ∧
      (PollIsDue s.toBlock ∧ Instr.poll ∈ es →
        bcasts t.out = bcasts s.out ++ [textOf (decodePacket s.ready)]) ∧
      (¬ (PollIsDue s.toBlock ∧ Instr.poll ∈ es) → bcasts t.out = bcasts s.out)

/-- 41_decode.md R135: the three results of DECODE bit by bit, and that no other bit of the packet changes them. -/
def Obligations.DecodeFields : Prop :=
  (∀ p : Packet,
    (decodePacket p).unit = (if p.getLsbD 0 then .inch else .mm) ∧
    (decodePacket p).sign = p.getLsbD 3 ∧
    ∀ i, i < 20 → (decodePacket p).magnitude.getLsbD i = p.getLsbD (23 - i)) ∧
  ∀ p q : Packet, (∀ i, i < 24 → i ≠ 1 → i ≠ 2 → p.getLsbD i = q.getLsbD i) → decodePacket p = decodePacket q

/-- 30_encoding.md R76, R77 and 95_test_vectors.md L1.1: the frame built for a measurement is 24 bits and decodes to
it, and every packet is, but for the bits the decoder ignores, the frame of what it decodes to. -/
def Obligations.FrameRoundTrip : Prop :=
  (∀ x : Measurement, (framePacket x).toNat < 2 ^ 24 ∧ decodePacket (framePacket x) = x) ∧
  ∀ p : Packet, framePacket (decodePacket p) = p &&& 0x00FFFFF9#32

/-- 41_decode.md R137: the four laws of rev_24. -/
def Obligations.ReversalLaws : Prop :=
  (∀ x : Packet, rev24 ((rev24 x).setWidth 32) = x.setWidth 24) ∧
  (∀ x y : Packet, x.setWidth 24 = y.setWidth 24 → rev24 x = rev24 y) ∧
  (∀ x : Packet, (rev24 (x <<< 4)).extractLsb' 20 4 = 0#4 ∧
    (rev24 (x <<< 4)).extractLsb' 0 20 = (x.extractLsb' 0 20).reverse) ∧
  rev24 0x000001#32 = 0x800000#24 ∧ rev24 0x800000#32 = 0x000001#24 ∧ rev24 0xABCDEF#32 = 0xF7B3D5#24

/-- 41_decode.md R138: the scaled value is exact and fits in 27 bits. -/
def Obligations.ScalingIsExact : Prop :=
  ∀ m : Magnitude, scaledValue .mm m = m.toNat * 100 ∧ scaledValue .inch m = m.toNat * 5 ∧
    ∀ u, scaledValue u m < (2 ^ 20 - 1) * 100 + 1 ∧ scaledValue u m < 2 ^ 27

/-- 41_decode.md R141, with dec and dec4 of 00_scope.md R13 spelled by Lean's own decimal printing (the four digits of
k below 10000 are those of 10000 + k without the leading 1). -/
def Obligations.TextFormat : Prop :=
  ∀ x : Measurement,
    let v := x.magnitude.toNat * (if x.unit = .mm then 100 else 5)
    textOf x =
      (if x.sign then ['-'] else []) ++ (Nat.repr (v / 10000)).toList ++ ['.'] ++
        (Nat.repr (10000 + v % 10000)).toList.tail ++ (if x.unit = .inch then ['"'] else ['m', 'm']) ++ ['\n']

/-- 41_decode.md R138, R140, R141: the text spells the measurement exactly, read back by a reader that shares nothing
with the writer; negative zero keeps its sign. -/
def Obligations.TextReadsBack : Prop :=
  ∀ x : Measurement,
    readText (textOf x) = some
      { negative := x.sign, unit := x.unit
        tenThousandths := x.magnitude.toNat * (if x.unit = .mm then 100 else 5) }

/-- 41_decode.md R142: the lengths of the text, and the shortest and longest texts. -/
def Obligations.TextLength : Prop :=
  (∀ x : Measurement, x.unit = .mm → 9 ≤ (textOf x).length ∧ (textOf x).length ≤ 14) ∧
  (∀ x : Measurement, x.unit = .inch → 8 ≤ (textOf x).length ∧ (textOf x).length ≤ 11) ∧
  textOf { unit := .mm, sign := false, magnitude := 0#20 } = "0.0000mm\n".toList ∧
  textOf { unit := .inch, sign := false, magnitude := 0#20 } = "0.0000\"\n".toList ∧
  textOf { unit := .mm, sign := true, magnitude := 1048575#20 } = "-10485.7500mm\n".toList ∧
  textOf { unit := .inch, sign := true, magnitude := 1048575#20 } = "-524.2875\"\n".toList

/-- 41_decode.md R147, a rule the spec derives from R131, R135 and R141: the end-to-end property of a POLL on a built
frame. -/
def Obligations.PollOfAFrameSpellsTheMeasurement : Prop :=
  ∀ (x : Measurement) (s : State), s.ready = framePacket x → s.rdy = true → s.lastPkt ≠ s.ready →
    ∃ t text, exec .poll s = .next t ∧ t.out = s.out ++ [.bcast text] ∧ text = textOf x ∧
      readText text = some
        { negative := x.sign, unit := x.unit
          tenThousandths := x.magnitude.toNat * (if x.unit = .mm then 100 else 5) }

/-- 30_encoding.md R75, R87 and 40_capture.md R101, 41_decode.md R131: a measurement sent as a frame after a late first
edge, a gap, the next frame's first edge and a POLL is broadcast as its text. The two conditions beside the late edge
are those of 30_encoding.md R87 (G + 1 < 2^W) and of the duplicate test. -/
def Obligations.MeasurementEndToEnd : Prop :=
  ∀ (x : Measurement) (s : State) (d : Bit),
    EdgeIsLate s → s.params.gapMs.toNat + 1 < 2 ^ 32 → framePacket x ≠ s.lastPkt →
      ∃ t, runEvents (measEvents x ++ gapEvents s.params.gapMs ++ [.clkFall d, .poll]) s = .next t ∧
        t.out = s.out ++ [.bcast (textOf x)] ∧ t.measurement = x ∧ t.decValid = true ∧ t.rdy = false ∧
        t.lastPkt = framePacket x

/-! ## The trigger -/

/-- 42_trigger.md R171: the result of TRIG, every register, and its word. -/
def Obligations.TrigResult : Prop :=
  encode .trig = 0xA0#8 ∧
  ∀ s : State, ∃ t, exec .trig s = .next t ∧
    if 500 < triggerGap s.toBlock then
      t.toBlock = { s.toBlock with
        lastTrig := s.now
        out := s.out ++
          (if s.decValid then [.replay (textOf { unit := s.decUnit, sign := s.decSign, magnitude := s.decMag })]
           else if s.params.emptyReplay = .emitEmpty then [.replayEmpty] else []) }
    else t.toBlock = s.toBlock

/-- 42_trigger.md R173, for sequences without RESET (which restarts the interval): within 500 TICKs at most one replay
is emitted, exactly one when the first trigger is accepted and something is there to emit; and two accepted triggers
with none accepted between are more than 500 TICKs apart, modulo 2^W. -/
def Obligations.TriggersAreRateLimited : Prop :=
  (∀ (es : List Instr) (s : State), Instr.reset ∉ es → ticks es ≤ 500 →
    ∃ t, runEvents es s = .next t ∧ replays t.out ≤ replays s.out + 1) ∧
  (∀ (es : List Instr) (s : State), Instr.reset ∉ es → ticks es ≤ 500 → TriggerIsDue s.toBlock →
    s.decValid = true ∨ s.params.emptyReplay = .emitEmpty →
      ∃ t, runEvents (.trig :: es) s = .next t ∧ replays t.out = replays s.out + 1) ∧
  ∀ (es : List Instr) (s t u : State), TriggerIsDue s.toBlock → exec .trig s = .next t → Instr.reset ∉ es →
    runEvents es t = .next u → u.lastTrig = t.lastTrig → TriggerIsDue u.toBlock → 500 < ticks es % 2 ^ 32

/-- 70_reset_and_hazards.md R242: after a RESET no trigger is accepted until NOW = 501, counted in TICKs. -/
def Obligations.TriggerAfterReset : Prop :=
  ∀ (es : List Instr) (s : State), Instr.reset ∉ es → ticks es ≤ 500 →
    ∃ t, runEvents (.reset :: es) s = .next t ∧ t.lastTrig = 0#32 ∧ replays t.out = replays s.out ∧
      (ticks es = 500 → ∃ u, runEvents [.tick, .trig] t = .next u ∧ u.now = 501#32 ∧ u.lastTrig = 501#32)

/-- 42_trigger.md R172: the two outputs the sinks make of one REPLAY; their order is not part of the record. -/
def Obligations.ReplayDelivery : Prop :=
  ∀ (keys : Bool) (text : Text),
    (deliver keys (.replay text)).broadcast = '*' :: text ∧
    (keys = true → (deliver keys (.replay text)).keystrokes = some text) ∧
    (keys = false → (deliver keys (.replay text)).keystrokes = none)

/-- 42_trigger.md R175: no event changes KEYS_CAPABLE, it changes no register of the block, and it changes only what the
sinks do with a REPLAY record. -/
def Obligations.KeystrokeCapabilityIsFixed : Prop :=
  (∀ (es : List Instr) (s : State) (keys : Bool),
    ∃ t t', runEvents es s = .next t ∧
      runEvents es { s with params := { s.params with keysCapable := keys } } = .next t' ∧
      t.params.keysCapable = s.params.keysCapable ∧ t'.toBlock = t.toBlock) ∧
  ∀ r : Record, (∀ text, r ≠ .replay text) → deliver true r = deliver false r

/-! ## Reset, time and hazards -/

/-- 70_reset_and_hazards.md R230: the result of RESET, every register, and its word; REFUSED and OUT are kept. -/
def Obligations.ResetResult : Prop :=
  encode .reset = 0xC0#8 ∧
  ∀ s : State, ∃ t, exec .reset s = .next t ∧
    t.toBlock = { s.toBlock with
      raw := 0#32, ready := 0#32, rdy := false, lastT := 0#32, now := 0#32, lastPkt := 0#32
      decValid := false, decUnit := .mm, decSign := false, decMag := 0#20, lastTrig := 0#32 }

/-- 10_state.md R37 and 70_reset_and_hazards.md R231 (the values are the spec's own decision, 92_eei_decisions.md D5):
the state at the start of a run, REFUSED 0 and OUT empty, whatever the OPEN parameters are; the RESET event leaves
the same registers; and the block is at once ready for any event. -/
def Obligations.StartOfRun : Prop :=
  let start : Block :=
    { raw := 0#32, ready := 0#32, rdy := false, lastT := 0#32, now := 0#32, lastPkt := 0#32
      decValid := false, decUnit := .mm, decSign := false, decMag := 0#20, lastTrig := 0#32
      refused := false, out := [] }
  State.reset.toBlock = start ∧
  (∀ p : Config.Params, (State.resetWith p).toBlock = start) ∧
  (∀ s : State, ∃ t, exec .reset s = .next t ∧ t.toBlock = { start with refused := s.refused, out := s.out }) ∧
  ∀ i : Instr, ∃ t, exec i State.reset = .next t

/-- 70_reset_and_hazards.md R241: the first edge after a RESET, n TICKs later. With n > GAP_MS it publishes the reset
value, which POLL finds a duplicate, and RDY stays 1; otherwise it continues the zero frame and publishes nothing. -/
def Obligations.FirstEdgeAfterReset : Prop :=
  ∀ (s : State) (n : Nat) (d : Bit), n < 2 ^ 32 →
    ∃ t u, runEvents (.reset :: waitEvents n ++ [.clkFall d]) s = .next t ∧ exec .poll t = .next u ∧
      u.toBlock = t.toBlock ∧ t.ready = 0#32 ∧ t.raw.toNat = 1 - d.toNat ∧
      (t.rdy = true ↔ s.params.gapMs.toNat < n)

/-- 70_reset_and_hazards.md R244: an elapsed time of n TICKs is judged by n modulo 2^W, by the next edge and by the next
trigger. -/
def Obligations.ElapsedTimeIsModular : Prop :=
  (∀ (s : State) (n : Nat) (d d' : Bit),
    ∃ t u, runEvents (.clkFall d :: waitEvents n) s = .next t ∧ exec (.clkFall d') t = .next u ∧
      if s.params.gapMs.toNat < n % 2 ^ 32 then u.ready = t.raw ∧ u.rdy = true
      else u.ready = t.ready ∧ u.rdy = t.rdy) ∧
  ∀ (s : State) (n : Nat), TriggerIsDue s.toBlock →
    ∃ t u, runEvents (.trig :: waitEvents n) s = .next t ∧ exec .trig t = .next u ∧
      if 500 < n % 2 ^ 32 then u.lastTrig = t.now else u.toBlock = t.toBlock

/-! ## The whole machine -/

/-- 10_state.md R23: what every event does to the packet-ready flag, and its reset value. -/
def Obligations.ReadyFlagRule : Prop :=
  State.reset.rdy = false ∧
  ∀ (i : Instr) (s t : State), exec i s = .next t →
    t.rdy = match i with
      | .clkFall _ => if s.params.gapMs.toNat < edgeGap s.toBlock then true else s.rdy
      | .poll      => if s.rdy = true ∧ s.ready ≠ s.lastPkt then false else s.rdy
      | .reset     => false
      | .clkRise   => s.rdy
      | .tick      => s.rdy
      | .trig      => s.rdy

/-- 10_state.md R29: REFUSED is 0 at the start, is set when a word is refused, and no event clears it, not even RESET.
That a refusal is a next state is the model's reading, log entry 3. -/
def Obligations.RefusedMarkIsSticky : Prop :=
  State.reset.refused = false ∧
  (∀ (i : Instr) (s t : State), exec i s = .next t → t.refused = s.refused) ∧
  (∀ (s : State) (w : EventWord) (ws : List EventWord) (c : RefusalCode),
    s.pending = w :: ws → decode w = .error c → ∃ t, step s = .next t ∧ t.refused = true) ∧
  ∀ s t : State, s.refused = true → step s = .next t → t.refused = true

/-- 10_state.md R33, 41_decode.md R144, 42_trigger.md R174: OUT only grows, by at most one record an event, a BCAST
only at an accepting POLL and a replay only at an accepted TRIG. -/
def Obligations.OutputLogOnlyGrows : Prop :=
  (∀ (i : Instr) (s t : State), exec i s = .next t →
    t.out = s.out ∨
    (i = .poll ∧ PollIsDue s.toBlock ∧ ∃ text, t.out = s.out ++ [.bcast text]) ∨
    (i = .trig ∧ TriggerIsDue s.toBlock ∧ s.decValid = true ∧ ∃ text, t.out = s.out ++ [.replay text]) ∨
    (i = .trig ∧ TriggerIsDue s.toBlock ∧ s.decValid = false ∧ s.params.emptyReplay = .emitEmpty ∧
      t.out = s.out ++ [.replayEmpty])) ∧
  ∀ s t : State, step s = .next t → s.out <+: t.out

/-- 10_state.md R34: each register is written only by the events its row names as writers. -/
def Obligations.RegistersHaveTheirWriters : Prop :=
  ∀ (i : Instr) (s t : State), exec i s = .next t → i ≠ .reset →
    (t.raw ≠ s.raw ∨ t.ready ≠ s.ready ∨ t.lastT ≠ s.lastT → isEdge i = true) ∧
    (t.rdy ≠ s.rdy → (isEdge i = true ∧ t.rdy = true) ∨ (i = .poll ∧ t.rdy = false)) ∧
    (t.now ≠ s.now → i = .tick) ∧
    (t.lastPkt ≠ s.lastPkt ∨ t.decValid ≠ s.decValid ∨ t.decUnit ≠ s.decUnit ∨ t.decSign ≠ s.decSign ∨
      t.decMag ≠ s.decMag → i = .poll ∧ PollIsDue s.toBlock) ∧
    (t.lastTrig ≠ s.lastTrig → i = .trig ∧ TriggerIsDue s.toBlock)

/-- 60_exceptions.md R208: what each context may write, and that it reads nothing but what it may. -/
def Obligations.ContextsKeepToTheirDuties : Prop :=
  (∀ (d : Bit) (s t : State), exec (.clkFall d) s = .next t →
    t.toBlock = { s.toBlock with raw := t.raw, ready := t.ready, lastT := t.lastT, rdy := t.rdy } ∧
    (t.rdy = s.rdy ∨ t.rdy = true)) ∧
  (∀ (i : Instr) (s t : State), i = .poll ∨ i = .trig → exec i s = .next t →
    t.toBlock = { s.toBlock with
      rdy := t.rdy, lastPkt := t.lastPkt, decValid := t.decValid, decUnit := t.decUnit, decSign := t.decSign
      decMag := t.decMag, lastTrig := t.lastTrig, out := t.out } ∧
    (t.rdy = s.rdy ∨ t.rdy = false)) ∧
  (∀ (d : Bit) (s s' t t' : State),
    s.raw = s'.raw → s.lastT = s'.lastT → s.now = s'.now → s.params = s'.params →
    exec (.clkFall d) s = .next t → exec (.clkFall d) s' = .next t' →
      t.raw = t'.raw ∧ t.lastT = t'.lastT ∧
      ((t.ready = t'.ready ∧ t.rdy = t'.rdy) ∨
        (t.ready = s.ready ∧ t.rdy = s.rdy ∧ t'.ready = s'.ready ∧ t'.rdy = s'.rdy))) ∧
  ∀ (i : Instr) (s s' t t' : State), i = .poll ∨ i = .trig →
    s'.toBlock = { s.toBlock with raw := s'.raw, lastT := s'.lastT, refused := s'.refused, out := s'.out } →
    s'.params = s.params → exec i s = .next t → exec i s' = .next t' →
      ∃ new, t.out = s.out ++ new ∧
        t'.toBlock = { t.toBlock with
          raw := s'.raw, lastT := s'.lastT, refused := s'.refused, out := s'.out ++ new }

/-- 10_state.md R21 ("The consumer never reads it") and 20_memory.md R59: until an edge publishes it, the frame in
progress has no effect on anything outside RAW and LAST_T, the output included. -/
def Obligations.FrameInProgressIsInvisible : Prop :=
  ∀ (es : List Instr) (s s' : State), edges es = 0 →
    s'.toBlock = { s.toBlock with raw := s'.raw, lastT := s'.lastT } → s'.params = s.params →
      ∃ t t', runEvents es s = .next t ∧ runEvents es s' = .next t' ∧
        t'.toBlock = { t.toBlock with raw := t'.raw, lastT := t'.lastT }

/-- 10_state.md R36 items 1 to 3, as an invariant of the step: from every state that meets it, whatever the next word,
a refused one included. -/
def Obligations.StepKeepsTheInvariants : Prop :=
  ∀ s t : State, Consistent s.toBlock → step s = .next t → Consistent t.toBlock

/-- 10_state.md R36 items 1 to 3 and 41_decode.md R145 hold at the start of a run, under every parameter. -/
def Obligations.ResetMeetsTheInvariants : Prop :=
  (∀ p : Config.Params, Consistent (State.resetWith p).toBlock ∧ RetainedIsLastBroadcast (State.resetWith p).toBlock) ∧
  Consistent State.reset.toBlock ∧ RetainedIsLastBroadcast State.reset.toBlock

/-- 10_state.md R36, its four items, in every state that a sequence of events reaches from reset, and item 4 from any
state whose RAW fits the edges behind it. -/
def Obligations.ReachableStatesMeetTheInvariants : Prop :=
  (∀ (p : Config.Params) (es : List Instr),
    ∃ t, runEvents es (State.resetWith p) = .next t ∧ Consistent t.toBlock ∧
      (edgesSincePublish es (State.resetWith p) 0 ≤ 32 →
        t.raw.toNat < 2 ^ edgesSincePublish es (State.resetWith p) 0)) ∧
  ∀ (es : List Instr) (s : State) (n : Nat), s.raw.toNat < 2 ^ n →
    ∃ t, runEvents es s = .next t ∧ t.raw.toNat < 2 ^ edgesSincePublish es s n

/-- 41_decode.md R145: the retained measurement is the one last broadcast, kept by every step. -/
def Obligations.RetainedMeasurementIsTheLastBroadcast : Prop :=
  ∀ s t : State, RetainedIsLastBroadcast s.toBlock → step s = .next t → RetainedIsLastBroadcast t.toBlock
end

