-- ==== Sys2Proof/Laws/Datapath.lean ====
section
/-! SUPPORT. The bits of the decode datapath, and the digits of the output text. -/

namespace Sys2Proof.Machine

/-- rev_24 bit by bit: "rev_N(v)[i] = v[N-1-i]" (00_scope.md R11). -/
theorem rev24_getLsbD (v : Packet) (i : Nat) (h : i < 24) : (rev24 v).getLsbD i = v.getLsbD (23 - i) := by
  rw [rev24, BitVec.getLsbD_reverse, BitVec.getMsbD_eq_getLsbD, BitVec.getLsbD_setWidth]
  have : 23 - i < 24 := by omega
  simp [h, this]

/-- The mask keeps bits 31 to 4. -/
theorem flagMask_getLsbD (i : Nat) (h : i < 32) : flagMask.getLsbD i = decide (4 ≤ i) := by
  have : ∀ j : Fin 32, flagMask.getLsbD j.val = decide (4 ≤ j.val) := by decide
  exact this ⟨i, h⟩

/-- MAG bit by bit: "MAG[i] = P[23 - i] for 0 <= i <= 19" (30_encoding.md R74). -/
theorem magnitudeOf_getLsbD (p : Packet) (i : Nat) (h : i < 20) :
    (magnitudeOf p).getLsbD i = p.getLsbD (23 - i) := by
  have h4 : 4 ≤ 23 - i := by omega
  simp only [magnitudeOf, BitVec.getLsbD_setWidth, rev24_getLsbD _ i (by omega), BitVec.getLsbD_and,
    flagMask_getLsbD (23 - i) (by omega), h, h4, decide_true, Bool.and_true, Bool.true_and]

@[simp] theorem LengthUnit.ofBit_bit (u : LengthUnit) : LengthUnit.ofBit u.bit = u := by
  cases u <;> rfl

@[simp] theorem LengthUnit.bit_ofBit (b : Bool) : (LengthUnit.ofBit b).bit = b := by
  cases b <;> rfl

/-- V is below the bound of 41_decode.md R138. -/
theorem scaledValue_lt (u : LengthUnit) (m : Magnitude) : scaledValue u m < 104857501 := by
  have := m.isLt
  cases u <;> simp [scaledValue, LengthUnit.resolution, Config.resMm, Config.resIn] <;> omega

/-- TEXT with its parts named (41_decode.md R141). -/
theorem textOf_eq (x : Measurement) :
    textOf x = signText x.sign ++ dec (scaledValue x.unit x.magnitude / 10000) ++ ['.'] ++
      dec4 (scaledValue x.unit x.magnitude % 10000) ++ x.unit.suffix ++ ['\n'] := rfl

@[simp] theorem dec4_length (n : Nat) : (dec4 n).length = 4 := rfl

end Sys2Proof.Machine
end

