-- ==== Sys2Proof/Laws/Decode.lean ====
section
/-! SUPPORT. The decoder against the checks of WellFormed.lean. -/

namespace Sys2Proof

/-- The fields the refusal codes leave alone are the well-formed ones (30_encoding.md R83). -/
theorem refusal?_eq_none_iff (f : EventFields) : f.refusal? = none ↔ f.wellFormed = true := by
  have hd : ∀ d : Bit, (d = 1#1) = ¬ (d = 0#1) := by decide
  simp only [EventFields.refusal?, EventFields.wellFormed, hd]
  by_cases h0 : f.op = 0b000#3 <;> by_cases h7 : f.op = 0b111#3 <;> by_cases hr : f.rsv = 0#4 <;>
    by_cases h1 : f.op = 0b001#3 <;> by_cases hz : f.d = 0#1 <;> simp_all

/-- A well-formed word has an event, so the decoder's last branch is never taken. -/
theorem eventOf_of_wellFormed (f : EventFields) (h : f.wellFormed = true) : (eventOf f.op f.d).isSome = true := by
  have ops : ∀ op : BitVec 3, op ≠ 0b000#3 → op ≠ 0b111#3 → ∀ d : Bit, (eventOf op d).isSome = true := by decide
  simp only [EventFields.wellFormed, Bool.and_eq_true, bne_iff_ne] at h
  exact ops f.op h.1.1.1 h.1.1.2 f.d

/-- What the decoder can answer: the event of a well-formed word, or the refusal code of another. -/
theorem decode_cases (w : EventWord) :
    (∃ i, decode w = .ok i ∧ (fieldsOf w).wellFormed = true ∧ eventOf (fieldsOf w).op (fieldsOf w).d = some i) ∨
    (∃ c, decode w = .error c ∧ (fieldsOf w).wellFormed = false ∧ (fieldsOf w).refusal? = some c) := by
  cases h : (fieldsOf w).refusal? with
  | some c =>
    refine .inr ⟨c, by simp [decode, h], ?_, rfl⟩
    have := refusal?_eq_none_iff (fieldsOf w)
    simp_all
  | none =>
    have wf := (refusal?_eq_none_iff _).mp h
    obtain ⟨i, hi⟩ := Option.isSome_iff_exists.mp (eventOf_of_wellFormed _ wf)
    exact .inl ⟨i, by simp [decode, h, hi], wf, hi⟩

@[simp] theorem fieldsOf_encode (i : Instr) :
    fieldsOf (encode i) = { op := opOf i, rsv := 0#4, d := levelOf i } := by
  cases i with
  | clkFall d => exact (by decide : ∀ d : Bit, fieldsOf (encode (.clkFall d)) = { op := 0b001#3, rsv := 0#4, d := d }) d
  | clkRise | tick | poll | trig | reset => decide

end Sys2Proof
end

