-- ==== Sys2Proof/Laws/State.lean ====
section
/-! SUPPORT. One lemma per field per update of the state, each true by rfl, so that no later proof unfolds a record
update. -/

namespace Sys2Proof.Machine

@[simp] theorem Block.signalReady_raw (b : Block) : (b.signalReady).raw = b.raw := rfl
@[simp] theorem Block.signalReady_ready (b : Block) : (b.signalReady).ready = b.ready := rfl
@[simp] theorem Block.signalReady_rdy (b : Block) : (b.signalReady).rdy = true := rfl
@[simp] theorem Block.signalReady_lastT (b : Block) : (b.signalReady).lastT = b.lastT := rfl
@[simp] theorem Block.signalReady_now (b : Block) : (b.signalReady).now = b.now := rfl
@[simp] theorem Block.signalReady_lastPkt (b : Block) : (b.signalReady).lastPkt = b.lastPkt := rfl
@[simp] theorem Block.signalReady_decValid (b : Block) : (b.signalReady).decValid = b.decValid := rfl
@[simp] theorem Block.signalReady_decUnit (b : Block) : (b.signalReady).decUnit = b.decUnit := rfl
@[simp] theorem Block.signalReady_decSign (b : Block) : (b.signalReady).decSign = b.decSign := rfl
@[simp] theorem Block.signalReady_decMag (b : Block) : (b.signalReady).decMag = b.decMag := rfl
@[simp] theorem Block.signalReady_lastTrig (b : Block) : (b.signalReady).lastTrig = b.lastTrig := rfl
@[simp] theorem Block.signalReady_refused (b : Block) : (b.signalReady).refused = b.refused := rfl
@[simp] theorem Block.signalReady_out (b : Block) : (b.signalReady).out = b.out := rfl

@[simp] theorem Block.acknowledge_raw (b : Block) : (b.acknowledge).raw = b.raw := rfl
@[simp] theorem Block.acknowledge_ready (b : Block) : (b.acknowledge).ready = b.ready := rfl
@[simp] theorem Block.acknowledge_rdy (b : Block) : (b.acknowledge).rdy = false := rfl
@[simp] theorem Block.acknowledge_lastT (b : Block) : (b.acknowledge).lastT = b.lastT := rfl
@[simp] theorem Block.acknowledge_now (b : Block) : (b.acknowledge).now = b.now := rfl
@[simp] theorem Block.acknowledge_lastPkt (b : Block) : (b.acknowledge).lastPkt = b.lastPkt := rfl
@[simp] theorem Block.acknowledge_decValid (b : Block) : (b.acknowledge).decValid = b.decValid := rfl
@[simp] theorem Block.acknowledge_decUnit (b : Block) : (b.acknowledge).decUnit = b.decUnit := rfl
@[simp] theorem Block.acknowledge_decSign (b : Block) : (b.acknowledge).decSign = b.decSign := rfl
@[simp] theorem Block.acknowledge_decMag (b : Block) : (b.acknowledge).decMag = b.decMag := rfl
@[simp] theorem Block.acknowledge_lastTrig (b : Block) : (b.acknowledge).lastTrig = b.lastTrig := rfl
@[simp] theorem Block.acknowledge_refused (b : Block) : (b.acknowledge).refused = b.refused := rfl
@[simp] theorem Block.acknowledge_out (b : Block) : (b.acknowledge).out = b.out := rfl

@[simp] theorem Block.shiftBit_raw (x : Bit) (b : Block) : (b.shiftBit x).raw = shiftIn b.raw x := rfl
@[simp] theorem Block.shiftBit_ready (x : Bit) (b : Block) : (b.shiftBit x).ready = b.ready := rfl
@[simp] theorem Block.shiftBit_rdy (x : Bit) (b : Block) : (b.shiftBit x).rdy = b.rdy := rfl
@[simp] theorem Block.shiftBit_lastT (x : Bit) (b : Block) : (b.shiftBit x).lastT = b.lastT := rfl
@[simp] theorem Block.shiftBit_now (x : Bit) (b : Block) : (b.shiftBit x).now = b.now := rfl
@[simp] theorem Block.shiftBit_lastPkt (x : Bit) (b : Block) : (b.shiftBit x).lastPkt = b.lastPkt := rfl
@[simp] theorem Block.shiftBit_decValid (x : Bit) (b : Block) : (b.shiftBit x).decValid = b.decValid := rfl
@[simp] theorem Block.shiftBit_decUnit (x : Bit) (b : Block) : (b.shiftBit x).decUnit = b.decUnit := rfl
@[simp] theorem Block.shiftBit_decSign (x : Bit) (b : Block) : (b.shiftBit x).decSign = b.decSign := rfl
@[simp] theorem Block.shiftBit_decMag (x : Bit) (b : Block) : (b.shiftBit x).decMag = b.decMag := rfl
@[simp] theorem Block.shiftBit_lastTrig (x : Bit) (b : Block) : (b.shiftBit x).lastTrig = b.lastTrig := rfl
@[simp] theorem Block.shiftBit_refused (x : Bit) (b : Block) : (b.shiftBit x).refused = b.refused := rfl
@[simp] theorem Block.shiftBit_out (x : Bit) (b : Block) : (b.shiftBit x).out = b.out := rfl

@[simp] theorem Block.publish_raw (x : Bit) (b : Block) : (b.publish x).raw = x.setWidth 32 := rfl
@[simp] theorem Block.publish_ready (x : Bit) (b : Block) : (b.publish x).ready = b.raw := rfl
@[simp] theorem Block.publish_rdy (x : Bit) (b : Block) : (b.publish x).rdy = true := rfl
@[simp] theorem Block.publish_lastT (x : Bit) (b : Block) : (b.publish x).lastT = b.lastT := rfl
@[simp] theorem Block.publish_now (x : Bit) (b : Block) : (b.publish x).now = b.now := rfl
@[simp] theorem Block.publish_lastPkt (x : Bit) (b : Block) : (b.publish x).lastPkt = b.lastPkt := rfl
@[simp] theorem Block.publish_decValid (x : Bit) (b : Block) : (b.publish x).decValid = b.decValid := rfl
@[simp] theorem Block.publish_decUnit (x : Bit) (b : Block) : (b.publish x).decUnit = b.decUnit := rfl
@[simp] theorem Block.publish_decSign (x : Bit) (b : Block) : (b.publish x).decSign = b.decSign := rfl
@[simp] theorem Block.publish_decMag (x : Bit) (b : Block) : (b.publish x).decMag = b.decMag := rfl
@[simp] theorem Block.publish_lastTrig (x : Bit) (b : Block) : (b.publish x).lastTrig = b.lastTrig := rfl
@[simp] theorem Block.publish_refused (x : Bit) (b : Block) : (b.publish x).refused = b.refused := rfl
@[simp] theorem Block.publish_out (x : Bit) (b : Block) : (b.publish x).out = b.out := rfl

@[simp] theorem Block.stampEdge_raw (b : Block) : (b.stampEdge).raw = b.raw := rfl
@[simp] theorem Block.stampEdge_ready (b : Block) : (b.stampEdge).ready = b.ready := rfl
@[simp] theorem Block.stampEdge_rdy (b : Block) : (b.stampEdge).rdy = b.rdy := rfl
@[simp] theorem Block.stampEdge_lastT (b : Block) : (b.stampEdge).lastT = b.now := rfl
@[simp] theorem Block.stampEdge_now (b : Block) : (b.stampEdge).now = b.now := rfl
@[simp] theorem Block.stampEdge_lastPkt (b : Block) : (b.stampEdge).lastPkt = b.lastPkt := rfl
@[simp] theorem Block.stampEdge_decValid (b : Block) : (b.stampEdge).decValid = b.decValid := rfl
@[simp] theorem Block.stampEdge_decUnit (b : Block) : (b.stampEdge).decUnit = b.decUnit := rfl
@[simp] theorem Block.stampEdge_decSign (b : Block) : (b.stampEdge).decSign = b.decSign := rfl
@[simp] theorem Block.stampEdge_decMag (b : Block) : (b.stampEdge).decMag = b.decMag := rfl
@[simp] theorem Block.stampEdge_lastTrig (b : Block) : (b.stampEdge).lastTrig = b.lastTrig := rfl
@[simp] theorem Block.stampEdge_refused (b : Block) : (b.stampEdge).refused = b.refused := rfl
@[simp] theorem Block.stampEdge_out (b : Block) : (b.stampEdge).out = b.out := rfl

@[simp] theorem Block.advanceTime_raw (b : Block) : (b.advanceTime).raw = b.raw := rfl
@[simp] theorem Block.advanceTime_ready (b : Block) : (b.advanceTime).ready = b.ready := rfl
@[simp] theorem Block.advanceTime_rdy (b : Block) : (b.advanceTime).rdy = b.rdy := rfl
@[simp] theorem Block.advanceTime_lastT (b : Block) : (b.advanceTime).lastT = b.lastT := rfl
@[simp] theorem Block.advanceTime_now (b : Block) : (b.advanceTime).now = b.now + Config.tickMs := rfl
@[simp] theorem Block.advanceTime_lastPkt (b : Block) : (b.advanceTime).lastPkt = b.lastPkt := rfl
@[simp] theorem Block.advanceTime_decValid (b : Block) : (b.advanceTime).decValid = b.decValid := rfl
@[simp] theorem Block.advanceTime_decUnit (b : Block) : (b.advanceTime).decUnit = b.decUnit := rfl
@[simp] theorem Block.advanceTime_decSign (b : Block) : (b.advanceTime).decSign = b.decSign := rfl
@[simp] theorem Block.advanceTime_decMag (b : Block) : (b.advanceTime).decMag = b.decMag := rfl
@[simp] theorem Block.advanceTime_lastTrig (b : Block) : (b.advanceTime).lastTrig = b.lastTrig := rfl
@[simp] theorem Block.advanceTime_refused (b : Block) : (b.advanceTime).refused = b.refused := rfl
@[simp] theorem Block.advanceTime_out (b : Block) : (b.advanceTime).out = b.out := rfl

@[simp] theorem Block.consume_raw (p : Packet) (b : Block) : (b.consume p).raw = b.raw := rfl
@[simp] theorem Block.consume_ready (p : Packet) (b : Block) : (b.consume p).ready = b.ready := rfl
@[simp] theorem Block.consume_rdy (p : Packet) (b : Block) : (b.consume p).rdy = b.rdy := rfl
@[simp] theorem Block.consume_lastT (p : Packet) (b : Block) : (b.consume p).lastT = b.lastT := rfl
@[simp] theorem Block.consume_now (p : Packet) (b : Block) : (b.consume p).now = b.now := rfl
@[simp] theorem Block.consume_lastPkt (p : Packet) (b : Block) : (b.consume p).lastPkt = p := rfl
@[simp] theorem Block.consume_decValid (p : Packet) (b : Block) : (b.consume p).decValid = true := rfl
@[simp] theorem Block.consume_decUnit (p : Packet) (b : Block) : (b.consume p).decUnit = (decodePacket p).unit := rfl
@[simp] theorem Block.consume_decSign (p : Packet) (b : Block) : (b.consume p).decSign = (decodePacket p).sign := rfl
@[simp] theorem Block.consume_decMag (p : Packet) (b : Block) : (b.consume p).decMag = (decodePacket p).magnitude := rfl
@[simp] theorem Block.consume_lastTrig (p : Packet) (b : Block) : (b.consume p).lastTrig = b.lastTrig := rfl
@[simp] theorem Block.consume_refused (p : Packet) (b : Block) : (b.consume p).refused = b.refused := rfl
@[simp] theorem Block.consume_out (p : Packet) (b : Block) : (b.consume p).out = b.out := rfl

@[simp] theorem Block.emit_raw (r : Record) (b : Block) : (b.emit r).raw = b.raw := rfl
@[simp] theorem Block.emit_ready (r : Record) (b : Block) : (b.emit r).ready = b.ready := rfl
@[simp] theorem Block.emit_rdy (r : Record) (b : Block) : (b.emit r).rdy = b.rdy := rfl
@[simp] theorem Block.emit_lastT (r : Record) (b : Block) : (b.emit r).lastT = b.lastT := rfl
@[simp] theorem Block.emit_now (r : Record) (b : Block) : (b.emit r).now = b.now := rfl
@[simp] theorem Block.emit_lastPkt (r : Record) (b : Block) : (b.emit r).lastPkt = b.lastPkt := rfl
@[simp] theorem Block.emit_decValid (r : Record) (b : Block) : (b.emit r).decValid = b.decValid := rfl
@[simp] theorem Block.emit_decUnit (r : Record) (b : Block) : (b.emit r).decUnit = b.decUnit := rfl
@[simp] theorem Block.emit_decSign (r : Record) (b : Block) : (b.emit r).decSign = b.decSign := rfl
@[simp] theorem Block.emit_decMag (r : Record) (b : Block) : (b.emit r).decMag = b.decMag := rfl
@[simp] theorem Block.emit_lastTrig (r : Record) (b : Block) : (b.emit r).lastTrig = b.lastTrig := rfl
@[simp] theorem Block.emit_refused (r : Record) (b : Block) : (b.emit r).refused = b.refused := rfl
@[simp] theorem Block.emit_out (r : Record) (b : Block) : (b.emit r).out = b.out ++ [r] := rfl

@[simp] theorem Block.stampTrigger_raw (b : Block) : (b.stampTrigger).raw = b.raw := rfl
@[simp] theorem Block.stampTrigger_ready (b : Block) : (b.stampTrigger).ready = b.ready := rfl
@[simp] theorem Block.stampTrigger_rdy (b : Block) : (b.stampTrigger).rdy = b.rdy := rfl
@[simp] theorem Block.stampTrigger_lastT (b : Block) : (b.stampTrigger).lastT = b.lastT := rfl
@[simp] theorem Block.stampTrigger_now (b : Block) : (b.stampTrigger).now = b.now := rfl
@[simp] theorem Block.stampTrigger_lastPkt (b : Block) : (b.stampTrigger).lastPkt = b.lastPkt := rfl
@[simp] theorem Block.stampTrigger_decValid (b : Block) : (b.stampTrigger).decValid = b.decValid := rfl
@[simp] theorem Block.stampTrigger_decUnit (b : Block) : (b.stampTrigger).decUnit = b.decUnit := rfl
@[simp] theorem Block.stampTrigger_decSign (b : Block) : (b.stampTrigger).decSign = b.decSign := rfl
@[simp] theorem Block.stampTrigger_decMag (b : Block) : (b.stampTrigger).decMag = b.decMag := rfl
@[simp] theorem Block.stampTrigger_lastTrig (b : Block) : (b.stampTrigger).lastTrig = b.now := rfl
@[simp] theorem Block.stampTrigger_refused (b : Block) : (b.stampTrigger).refused = b.refused := rfl
@[simp] theorem Block.stampTrigger_out (b : Block) : (b.stampTrigger).out = b.out := rfl

@[simp] theorem Block.clear_raw (b : Block) : (b.clear).raw = 0#32 := rfl
@[simp] theorem Block.clear_ready (b : Block) : (b.clear).ready = 0#32 := rfl
@[simp] theorem Block.clear_rdy (b : Block) : (b.clear).rdy = false := rfl
@[simp] theorem Block.clear_lastT (b : Block) : (b.clear).lastT = 0#32 := rfl
@[simp] theorem Block.clear_now (b : Block) : (b.clear).now = 0#32 := rfl
@[simp] theorem Block.clear_lastPkt (b : Block) : (b.clear).lastPkt = 0#32 := rfl
@[simp] theorem Block.clear_decValid (b : Block) : (b.clear).decValid = false := rfl
@[simp] theorem Block.clear_decUnit (b : Block) : (b.clear).decUnit = .mm := rfl
@[simp] theorem Block.clear_decSign (b : Block) : (b.clear).decSign = false := rfl
@[simp] theorem Block.clear_decMag (b : Block) : (b.clear).decMag = 0#20 := rfl
@[simp] theorem Block.clear_lastTrig (b : Block) : (b.clear).lastTrig = 0#32 := rfl
@[simp] theorem Block.clear_refused (b : Block) : (b.clear).refused = b.refused := rfl
@[simp] theorem Block.clear_out (b : Block) : (b.clear).out = b.out := rfl

@[simp] theorem Block.measurement_unit (b : Block) : b.measurement.unit = b.decUnit := rfl
@[simp] theorem Block.measurement_sign (b : Block) : b.measurement.sign = b.decSign := rfl
@[simp] theorem Block.measurement_magnitude (b : Block) : b.measurement.magnitude = b.decMag := rfl
@[simp] theorem Block.consume_measurement (p : Packet) (b : Block) : (b.consume p).measurement = decodePacket p := rfl

@[simp] theorem Block.emit_measurement (r : Record) (b : Block) : (b.emit r).measurement = b.measurement := rfl
@[simp] theorem Block.stampTrigger_measurement (b : Block) : b.stampTrigger.measurement = b.measurement := rfl
@[simp] theorem Block.stampEdge_measurement (b : Block) : b.stampEdge.measurement = b.measurement := rfl
@[simp] theorem Block.publish_measurement (x : Bit) (b : Block) : (b.publish x).measurement = b.measurement := rfl
@[simp] theorem Block.shiftBit_measurement (x : Bit) (b : Block) : (b.shiftBit x).measurement = b.measurement := rfl
@[simp] theorem Block.advanceTime_measurement (b : Block) : b.advanceTime.measurement = b.measurement := rfl

@[simp] theorem State.onBlock_toBlock (f : Block → Block) (s : State) : (s.onBlock f).toBlock = f s.toBlock := rfl
@[simp] theorem State.onBlock_pending (f : Block → Block) (s : State) : (s.onBlock f).pending = s.pending := rfl
@[simp] theorem State.onBlock_refusals (f : Block → Block) (s : State) : (s.onBlock f).refusals = s.refusals := rfl
@[simp] theorem State.onBlock_params (f : Block → Block) (s : State) : (s.onBlock f).params = s.params := rfl
@[simp] theorem State.onBlock_id (s : State) : s.onBlock id = s := rfl

@[simp] theorem State.refuse_toBlock (c : RefusalCode) (s : State) :
    (s.refuse c).toBlock = { s.toBlock with refused := true } := rfl
@[simp] theorem State.refuse_pending (c : RefusalCode) (s : State) : (s.refuse c).pending = s.pending := rfl
@[simp] theorem State.refuse_refusals (c : RefusalCode) (s : State) : (s.refuse c).refusals = s.refusals ++ [c] := rfl
@[simp] theorem State.refuse_params (c : RefusalCode) (s : State) : (s.refuse c).params = s.params := rfl

@[simp] theorem State.resetWith_toBlock (p : Config.Params) : (State.resetWith p).toBlock = Block.powerOn := rfl
@[simp] theorem State.resetWith_pending (p : Config.Params) : (State.resetWith p).pending = [] := rfl
@[simp] theorem State.resetWith_refusals (p : Config.Params) : (State.resetWith p).refusals = [] := rfl
@[simp] theorem State.resetWith_params (p : Config.Params) : (State.resetWith p).params = p := rfl

@[simp] theorem State.wait_eq (s : State) : s.wait = s := rfl

/-- The state that has seen one word differs from the state before in `pending` alone. -/
@[simp] theorem State.nextWord?_cons (s : State) (w : EventWord) (ws : List EventWord) (h : s.pending = w :: ws) :
    s.nextWord? = some (w, { s with pending := ws }) := by
  simp [State.nextWord?, h]

@[simp] theorem State.nextWord?_nil (s : State) (h : s.pending = []) : s.nextWord? = none := by
  simp [State.nextWord?, h]

end Sys2Proof.Machine
end

