-- ==== Sys2Proof/Laws/Ops.lean ====
section
/-! SUPPORT. One lemma per shared operation, in the spec's own terms: integers reduced modulo 2^N (00_scope.md R11). -/

namespace Sys2Proof.Machine

open Sys2Proof.Safety

theorem elapsed_toNat (since now : Time) :
    (elapsed since now).toNat = (now.toNat + 2 ^ 32 - since.toNat) % 2 ^ 32 := by
  have := since.isLt
  simp only [elapsed, BitVec.toNat_sub]
  congr 1
  omega

/-- NEWFRAME in the terms of 40_capture.md R100. -/
theorem newFrame_iff (s : State) : newFrame s.lastT s.now s.params.gapMs = true ↔ EdgeIsLate s := by
  simp [newFrame, EdgeIsLate, edgeGap, BitVec.lt_def, elapsed_toNat]

/-- The debounce test in the terms of 42_trigger.md R171. -/
theorem debounced_iff (b : Block) : debounced b.lastTrig b.now = true ↔ TriggerIsDue b := by
  simp [debounced, TriggerIsDue, triggerGap, BitVec.lt_def, elapsed_toNat]

/-- The accept test in the terms of 41_decode.md R131. -/
theorem pollAccepts_iff (b : Block) : b.pollAccepts = true ↔ PollIsDue b := by
  simp [Block.pollAccepts, PollIsDue]

theorem dataBit_toNat (d : Bit) : (dataBit d).toNat = 1 - d.toNat := by
  have : ∀ x : Bit, (dataBit x).toNat = 1 - x.toNat := by decide
  exact this d

/-- A level sent for a bit is received as that bit (30_encoding.md R70, R87). -/
@[simp] theorem dataBit_levelFor (x : Bit) : dataBit (levelFor x) = x := by
  have : ∀ y : Bit, dataBit (levelFor y) = y := by decide
  exact this x

/-- The shift of 40_capture.md R101 step 4, over the integers. -/
theorem shiftIn_toNat (raw : Packet) (x : Bit) :
    (shiftIn raw x).toNat = (2 * raw.toNat + x.toNat) % 2 ^ 32 := by
  have hx := x.isLt
  have hr : raw.toNat <<< 1 % 2 ^ 32 = 2 * (raw.toNat % 2 ^ 31) := by
    rw [Nat.shiftLeft_eq]; omega
  have hor : 2 * (raw.toNat % 2 ^ 31) ||| x.toNat = 2 * (raw.toNat % 2 ^ 31) + x.toNat := by
    have := Nat.two_pow_add_eq_or_of_lt (i := 1) (b := x.toNat) (by omega) (raw.toNat % 2 ^ 31)
    simpa using this.symm
  have hz : (x.setWidth 32).toNat = x.toNat := by
    rw [BitVec.toNat_setWidth]; omega
  rw [shiftIn, BitVec.toNat_or, BitVec.toNat_shiftLeft, hr, hz, hor]
  omega

/-- What an edge does, by the framing decision (40_capture.md R101). -/
theorem fallingEdge_cases (g : Time) (d : Bit) (b : Block) :
    (newFrame b.lastT b.now g = true ∧ b.fallingEdge g d = (b.publish (dataBit d)).stampEdge) ∨
    (newFrame b.lastT b.now g = false ∧ b.fallingEdge g d = (b.shiftBit (dataBit d)).stampEdge) := by
  cases h : newFrame b.lastT b.now g
  · exact .inr ⟨rfl, by simp [Block.fallingEdge, h]⟩
  · exact .inl ⟨rfl, by simp [Block.fallingEdge, h]⟩

/-- What a POLL does (41_decode.md R131). -/
theorem decodeLoop_cases (b : Block) :
    (b.pollAccepts = true ∧
      b.decodeLoop = (b.acknowledge.consume b.ready).emit (.bcast (textOf (decodePacket b.ready)))) ∨
    (b.pollAccepts = false ∧ b.decodeLoop = b) := by
  cases h : b.pollAccepts
  · exact .inr ⟨rfl, by simp [Block.decodeLoop, h]⟩
  · exact .inl ⟨rfl, by simp [Block.decodeLoop, h]⟩

/-- What a TRIG does (42_trigger.md R171). -/
theorem trigger_cases (e : Config.EmptyReplay) (b : Block) :
    (debounced b.lastTrig b.now = true ∧ b.decValid = true ∧
      b.trigger e = b.stampTrigger.emit (.replay (textOf b.measurement))) ∨
    (debounced b.lastTrig b.now = true ∧ b.decValid = false ∧ e = .emitEmpty ∧
      b.trigger e = b.stampTrigger.emit .replayEmpty) ∨
    (debounced b.lastTrig b.now = true ∧ b.decValid = false ∧ e = .suppress ∧ b.trigger e = b.stampTrigger) ∨
    (debounced b.lastTrig b.now = false ∧ b.trigger e = b) := by
  cases h : debounced b.lastTrig b.now
  · exact .inr (.inr (.inr ⟨rfl, by simp [Block.trigger, h]⟩))
  · cases hv : b.decValid
    · cases e
      · exact .inr (.inr (.inl ⟨rfl, rfl, rfl, by simp [Block.trigger, Block.replay, h, hv]⟩))
      · exact .inr (.inl ⟨rfl, rfl, rfl, by simp [Block.trigger, Block.replay, h, hv]⟩)
    · exact .inl ⟨rfl, rfl, by simp [Block.trigger, Block.replay, h, hv, Block.measurement, Block.stampTrigger]⟩

end Sys2Proof.Machine
end

