-- ==== Sys2Proof/Laws/PerInstr.lean ====
section
/-! SUPPORT. Statements about every event as syntax, one lemma per constructor. The family EncodesWellFormed: the word
of an event passes every check of 30_encoding.md R83. -/

namespace Sys2Proof.Laws.EncodesWellFormed

open Sys2Proof

def Statement (i : Instr) : Prop :=
  (fieldsOf (encode i)).wellFormed = true

theorem clkFall (d : Bit) : Statement (.clkFall d) := by
  simp [Statement, EventFields.wellFormed, opOf]

theorem clkRise : Statement .clkRise := by
  simp [Statement, EventFields.wellFormed, opOf, levelOf]

theorem tick : Statement .tick := by
  simp [Statement, EventFields.wellFormed, opOf, levelOf]

theorem poll : Statement .poll := by
  simp [Statement, EventFields.wellFormed, opOf, levelOf]

theorem trig : Statement .trig := by
  simp [Statement, EventFields.wellFormed, opOf, levelOf]

theorem reset : Statement .reset := by
  simp [Statement, EventFields.wellFormed, opOf, levelOf]

end Sys2Proof.Laws.EncodesWellFormed
end

