-- ==== Sys2Proof/Laws/Step.lean ====
section
/-! SUPPORT. Said once: what an event can do, what a step can do, what a sequence can do. Later proofs cite these and
unfold neither `exec` nor `step`. -/

namespace Sys2Proof.Machine

/-- What each event does to the registers. -/
def effect (p : Config.Params) : Instr → Block → Block
  | .clkFall d => Block.fallingEdge p.gapMs d
  | .clkRise   => id
  | .tick      => Block.advanceTime
  | .poll      => Block.decodeLoop
  | .trig      => Block.trigger p.emptyReplay
  | .reset     => Block.clear

/-- An event always answers a next state, and changes the spec's registers alone. -/
theorem exec_eq_effect (i : Instr) (s : State) : exec i s = .next (s.onBlock (effect s.params i)) := by
  cases i <;> rfl

theorem exec_next_iff {i : Instr} {s t : State} : exec i s = .next t ↔ t = s.onBlock (effect s.params i) := by
  rw [exec_eq_effect]
  exact ⟨fun h => by injection h with h; exact h.symm, fun h => by rw [h]⟩

/-- What a step can do: wait, run the event of the next word, or refuse the next word. -/
theorem step_cases {s t : State} (h : step s = .next t) :
    (s.pending = [] ∧ t = s) ∨
    (∃ w ws i, s.pending = w :: ws ∧ decode w = .ok i ∧
      t = State.onBlock (effect s.params i) { s with pending := ws }) ∨
    (∃ w ws c, s.pending = w :: ws ∧ decode w = .error c ∧ t = State.refuse c { s with pending := ws }) := by
  cases hp : s.pending with
  | nil =>
    simp only [step, State.nextWord?_nil s hp, State.wait_eq] at h
    injection h with h
    exact .inl ⟨rfl, h.symm⟩
  | cons w ws =>
    simp only [step, State.nextWord?_cons s w ws hp] at h
    cases hd : decode w with
    | ok i =>
      simp only [hd] at h
      exact .inr (.inl ⟨w, ws, i, rfl, hd, exec_next_iff.mp h⟩)
    | error c =>
      simp only [hd] at h
      injection h with h
      exact .inr (.inr ⟨w, ws, c, rfl, hd, h.symm⟩)

/-- The registers after a sequence of events: the left fold of their effects (20_memory.md R56). -/
def effects (p : Config.Params) (es : List Instr) (b : Block) : Block :=
  es.foldl (fun b i => effect p i b) b

@[simp] theorem effects_nil (p : Config.Params) (b : Block) : effects p [] b = b := rfl

@[simp] theorem effects_cons (p : Config.Params) (i : Instr) (es : List Instr) (b : Block) :
    effects p (i :: es) b = effects p es (effect p i b) := rfl

@[simp] theorem effects_append (p : Config.Params) (es fs : List Instr) (b : Block) :
    effects p (es ++ fs) b = effects p fs (effects p es b) := by
  simp [effects]

/-- A sequence always answers a next state, and changes the spec's registers alone. -/
theorem runEvents_eq_effects (es : List Instr) (s : State) :
    runEvents es s = .next (s.onBlock (effects s.params es)) := by
  induction es generalizing s with
  | nil => rfl
  | cons i es ih => simp [runEvents, exec_eq_effect, ih, State.onBlock]

theorem runEvents_next_iff {es : List Instr} {s t : State} :
    runEvents es s = .next t ↔ t = s.onBlock (effects s.params es) := by
  rw [runEvents_eq_effects]
  exact ⟨fun h => by injection h with h; exact h.symm, fun h => by rw [h]⟩

/-- n TICKs advance NOW by n modulo 2^W and change nothing else (40_capture.md R104, R105). -/
theorem effects_waitEvents (p : Config.Params) (n : Nat) (b : Block) :
    effects p (waitEvents n) b = { b with now := b.now + BitVec.ofNat 32 n } := by
  induction n generalizing b with
  | zero => simp [waitEvents]
  | succ n ih =>
    have h := ih (effect p .tick b)
    have hnow : b.now + 1#32 + BitVec.ofNat 32 n = b.now + BitVec.ofNat 32 (n + 1) := by
      rw [BitVec.add_assoc, Nat.add_comm n 1, BitVec.ofNat_add]
    rw [waitEvents, List.replicate_succ, effects_cons, ← waitEvents, h]
    simp only [effect, Block.advanceTime, hnow]

end Sys2Proof.Machine
end

