-- ==== Sys2Proof/Tests/Slice0.lean ====
section
/-! SUPPORT. Small tests: expected values come from spec/95_test_vectors.md or are written out by hand from the
encodings. Then one witness for the hypotheses of each obligation that has any. -/

namespace Sys2Proof.Tests

open Sys2Proof Sys2Proof.Machine Sys2Proof.Safety

/-! ## Helpers -/

/-- Parameters with a given GAP_MS, no keystrokes and EMPTY_REPLAY = SUPPRESS. -/
def gapOf (g : Nat) : Config.Params :=
  { gapMs := BitVec.ofNat 32 g, keysCapable := false, emptyReplay := .suppress }

/-- A small state: some registers, a GAP_MS, the words still to come. -/
def stateOf (b : Block) (g : Nat) (ws : List EventWord) : State :=
  { b with pending := ws, refusals := [], params := gapOf g }

/-- The registers after one event, where it answers a next state. -/
def after (i : Instr) (s : State) : Option Block :=
  match exec i s with
  | .next t               => some t.toBlock
  | .fault _ | .refused _ => none

/-- The state after one step, where it answers one. -/
def afterStep (s : State) : Option State :=
  match step s with
  | .next t               => some t
  | .fault _ | .refused _ => none

/-- The state after a few events. -/
def afterAll (es : List Instr) (s : State) : Option State :=
  match runEvents es s with
  | .next t               => some t
  | .fault _ | .refused _ => none

/-- G = 5, 6 ms after an edge at 0: the next edge is late by one. -/
def lateState : State :=
  stateOf { Block.powerOn with raw := 0x00379000#32, now := 6#32 } 5 []

/-- The source's packet waiting in the mailbox. -/
def readyState : State :=
  stateOf { Block.powerOn with ready := 0x00379000#32, rdy := true } 5 []

/-- A measurement of 2540 counts retained, 1002 ms after the last accepted trigger (95_test_vectors.md R1). -/
def dueState : State :=
  stateOf { Block.powerOn with
    ready := 0x00379000#32, lastPkt := 0x00379000#32, decValid := true, decMag := 2540#20, now := 1002#32 } 5 []

/-! ## WellFormed: an ill-formed term for each check, which the check refuses -/

theorem test_illformed_op_zero : ({ op := 0b000#3, rsv := 0#4, d := 0#1 } : EventFields).wellFormed = false := by decide
theorem test_illformed_op_seven : ({ op := 0b111#3, rsv := 0#4, d := 0#1 } : EventFields).wellFormed = false := by decide
theorem test_illformed_reserved : ({ op := 0b001#3, rsv := 0b1000#4, d := 1#1 } : EventFields).wellFormed = false := by
  decide
theorem test_illformed_level : ({ op := 0b010#3, rsv := 0#4, d := 1#1 } : EventFields).wellFormed = false := by decide
theorem test_wellformed_level : ({ op := 0b001#3, rsv := 0#4, d := 1#1 } : EventFields).wellFormed = true := by decide

/-! ## Decoding: every constructor by a word written out from 30_encoding.md R80, R81 -/

theorem test_decode_clkFall_low : decode 0b00100000#8 = .ok (.clkFall 0#1) := by decide
theorem test_decode_clkFall_high : decode 0b00100001#8 = .ok (.clkFall 1#1) := by decide
theorem test_decode_clkRise : decode 0b01000000#8 = .ok .clkRise := by decide
theorem test_decode_tick : decode 0b01100000#8 = .ok .tick := by decide
theorem test_decode_poll : decode 0b10000000#8 = .ok .poll := by decide
theorem test_decode_trig : decode 0b10100000#8 = .ok .trig := by decide
theorem test_decode_reset : decode 0b11000000#8 = .ok .reset := by decide

/-- 95_test_vectors.md L2.8. -/
theorem test_refusal_codes :
    [0x00#8, 0x1F#8, 0xE5#8, 0xFF#8, 0x22#8, 0x23#8, 0x43#8, 0x7F#8, 0x41#8, 0x81#8].map
      (fun w => (fieldsOf w).refusal?.map RefusalCode.code) =
    [some 1, some 1, some 2, some 2, some 3, some 3, some 3, some 3, some 4, some 4] := by decide

theorem test_decodeTableWord : decodeTableWord 8 0x21 = some (.clkFall 1#1) ∧ decodeTableWord 8 0x81 = none := by
  decide

/-! ## The events -/

/-- 95_test_vectors.md C7: a gap of 6 across the wrap of NOW is more than 5 and publishes. -/
theorem test_clkFall_publishes_across_wrap :
    after (.clkFall 1#1)
      (stateOf { Block.powerOn with now := 5#32, lastT := 0xFFFFFFFF#32, raw := 0x7#32 } 5 []) =
    some { Block.powerOn with now := 5#32, lastT := 5#32, raw := 0#32, ready := 0x7#32, rdy := true } := by decide

/-- 95_test_vectors.md C2 and C5: a gap of exactly G continues, and the shift drops bit 31. -/
theorem test_clkFall_continues_at_threshold :
    after (.clkFall 0#1) (stateOf { Block.powerOn with now := 5#32, raw := 0x80000001#32 } 5 []) =
    some { Block.powerOn with now := 5#32, lastT := 5#32, raw := 0x3#32 } := by decide

/-- 95_test_vectors.md T1. -/
theorem test_clkRise : after .clkRise lateState = some lateState.toBlock := by decide

/-- 95_test_vectors.md T3. -/
theorem test_tick_wraps :
    after .tick (stateOf { Block.powerOn with now := 0xFFFFFFFF#32, lastT := 3#32 } 5 []) =
    some { Block.powerOn with now := 0#32, lastT := 3#32 } := by decide

/-- 95_test_vectors.md P5: equal in text but not in bits, so no duplicate. -/
theorem test_poll_compares_all_bits :
    after .poll (stateOf { Block.powerOn with
      ready := 0x00379002#32, rdy := true, lastPkt := 0x00379000#32, decValid := true, decMag := 2540#20 } 5 []) =
    some { Block.powerOn with
      ready := 0x00379002#32, lastPkt := 0x00379002#32, decValid := true, decMag := 2540#20
      out := [.bcast "25.4000mm\n".toList] } := by decide

/-- 95_test_vectors.md P2: a duplicate leaves RDY at 1. -/
theorem test_poll_duplicate_keeps_rdy :
    after .poll (stateOf { Block.powerOn with ready := 0x00379000#32, rdy := true, lastPkt := 0x00379000#32 } 5 []) =
    some { Block.powerOn with ready := 0x00379000#32, rdy := true, lastPkt := 0x00379000#32 } := by decide

/-- 95_test_vectors.md R7: accepted across the wrap. -/
theorem test_trig_accepted_across_wrap :
    after .trig (stateOf { Block.powerOn with
      now := 0x1F5#32, lastTrig := 0xFFFFFF00#32, decValid := true, decMag := 2540#20 } 5 []) =
    some { Block.powerOn with
      now := 0x1F5#32, lastTrig := 0x1F5#32, decValid := true, decMag := 2540#20
      out := [.replay "25.4000mm\n".toList] } := by decide

/-- 95_test_vectors.md R8: exactly 500 ms is dropped. -/
theorem test_trig_dropped_at_500 :
    after .trig (stateOf { Block.powerOn with now := 0xF4#32, lastTrig := 0xFFFFFF00#32 } 5 []) =
    some { Block.powerOn with now := 0xF4#32, lastTrig := 0xFFFFFF00#32 } := by decide

/-- 95_test_vectors.md R6: EMIT_EMPTY before any decode. -/
theorem test_trig_emits_empty :
    (Block.trigger .emitEmpty { Block.powerOn with now := 501#32 }).out = [.replayEmpty] := by decide

/-- 95_test_vectors.md S1 and S2: OUT and REFUSED are kept. -/
theorem test_reset_keeps_out_and_refused :
    after .reset (stateOf { Block.powerOn with
      raw := 0x379000#32, rdy := true, now := 77#32, decValid := true, refused := true
      out := [.bcast "25.4000mm\n".toList] } 5 []) =
    some { Block.powerOn with refused := true, out := [.bcast "25.4000mm\n".toList] } := by decide

/-! ## The datapath (95_test_vectors.md L1.2, L2.4) -/

theorem test_rev24 : rev24 0xABCDEF#32 = 0xF7B3D5#24 ∧ rev24 0x123456#32 = 0x6A2C48#24 := by decide

theorem test_decode_packet_ignores_bits :
    decodePacket 0x0F379006#32 = { unit := .mm, sign := false, magnitude := 2540#20 } ∧
    decodePacket 0xFFFFFFFF#32 = { unit := .inch, sign := true, magnitude := 1048575#20 } := by decide

theorem test_frame_and_text :
    framePacket { unit := .inch, sign := true, magnitude := 1000#20 } = 0x0017C009#32 ∧
    textOf { unit := .inch, sign := true, magnitude := 1000#20 } = "-0.5000\"\n".toList ∧
    textOf { unit := .mm, sign := true, magnitude := 0#20 } = "-0.0000mm\n".toList := by decide

/-- The first eight words of FRAME 0x0BE001 in 95_test_vectors.md L2.3, its zero bits and first one bit. -/
theorem test_frame_words :
    ((frameEvents 0x0BE001#32).take 10).map encode =
      [0x21#8, 0x40#8, 0x21#8, 0x40#8, 0x21#8, 0x40#8, 0x21#8, 0x40#8, 0x20#8, 0x40#8] := by decide

/-- 42_trigger.md R172, R174. -/
theorem test_deliver_replay :
    deliver true (.replay "1.0000\"\n".toList) =
      { broadcast := "*1.0000\"\n".toList, keystrokes := some "1.0000\"\n".toList } ∧
    deliver true .replayEmpty = { broadcast := "*".toList, keystrokes := none } := by decide

/-- The first lines of the example of 30_encoding.md R86. -/
theorem test_readTrace :
    readTrace ["CLK_FALL 1      ; word 0x21".toList, "; only a comment".toList, "RESET".toList] =
      some [.clkFall 1#1, .reset] ∧
    readTrace ["CLK_FALL 2".toList] = none := by decide

/-! ## The step -/

/-- 95_test_vectors.md Program 6: the word 0x81 is refused with code 4 and the run goes on. -/
theorem test_step_refuses_and_goes_on :
    ((afterStep (stateOf Block.powerOn 5 [0x81#8, 0x80#8])).map fun t => (t.toBlock, t.pending, t.refusals)) =
      some ({ Block.powerOn with refused := true }, [0x80#8], [.strayLevel]) := by decide

theorem test_step_runs_fetch_word :
    ((afterStep (State.reset.withFetchWord 8 0x60)).map fun t => (t.toBlock, t.pending)) =
      some ({ Block.powerOn with now := 1#32 }, []) := by decide

/-! ## Witnesses: a concrete state and operands that meet the hypotheses of each obligation, each clause -/

/-- The first and last reserved words of both reserved OP values. -/
theorem witness_OpcodeMapIsExact :
    ∀ w ∈ [0x00#8, 0x1F#8, 0xE0#8, 0xFF#8], w.toNat ≤ 0x1F ∨ 0xE0 ≤ w.toNat := by decide

theorem witness_DecodeInvertsEncode : decode 0x21#8 = .ok (.clkFall 1#1) := by decide

theorem witness_RefusedWordsAreExact :
    (decode 0x41#8 = .error .strayLevel) ∧ (stateOf Block.powerOn 5 [0x41#8]).pending = 0x41#8 :: [] := by decide

/-- The last word of each class of 60_exceptions.md R203 and one defined word. -/
theorem witness_RefusalRecordsItsCode :
    (∀ w ∈ [0x1F#8, 0xE0#8, 0x22#8, 0xC1#8, 0x21#8], (stateOf Block.powerOn 5 [w]).pending = [w]) ∧
    (∃ s t : State, s.refused = true ∧ step s = .next t) :=
  ⟨by decide, stateOf { Block.powerOn with refused := true } 5 [], _, by decide, rfl⟩

theorem witness_RefusalLogKeepsEveryCode :
    (stateOf Block.powerOn 5 [0xFF#8, 0x20#8]).pending = 0xFF#8 :: [0x20#8] ∧ decode 0xFF#8 = .error .opSeven := by
  decide

theorem witness_StepRunsTheDecodedEvent :
    (stateOf Block.powerOn 5 [0x20#8]).pending = 0x20#8 :: [] ∧ decode 0x20#8 = .ok (.clkFall 0#1) := by decide

theorem witness_IdleStepChangesNothing : (stateOf Block.powerOn 5 []).pending = [] := by decide

theorem witness_EveryWordHasAnOutcome :
    (stateOf Block.powerOn 5 [0xC0#8]).pending = [0xC0#8] ∧ (stateOf Block.powerOn 5 [0xC1#8]).pending = [0xC1#8] := by
  decide

theorem witness_EventsLeaveInputAndParameters : ∃ t, exec (.clkFall 0#1) lateState = .next t := ⟨_, rfl⟩

theorem witness_TimeIsTheTickCount :
    (∃ t, exec .tick lateState = .next t ∧ t.now ≠ lateState.now) ∧ Instr.reset ∉ [Instr.tick, .clkFall 0#1] :=
  ⟨⟨_, rfl, by decide⟩, by decide⟩

/-- A gap of exactly GAP_MS is not late. -/
theorem witness_NoPublishWithoutGap :
    Instr.reset ∉ [Instr.clkFall 0#1, .poll] ∧
    noLateEdge [.clkFall 0#1, .poll] (stateOf { Block.powerOn with now := 5#32 } 5 []) = true := by decide

/-- An edge late by one, one more edge of its frame, and an edge late by one. -/
theorem witness_PublishedPacketIsTheRunOfBits :
    EdgeIsLate lateState ∧ Instr.reset ∉ Instr.clkFall 0#1 :: waitEvents 6 ∧
    ∃ s' t, exec (.clkFall 1#1) lateState = .next s' ∧ noLateEdge (.clkFall 0#1 :: waitEvents 6) s' = true ∧
      runEvents (.clkFall 0#1 :: waitEvents 6) s' = .next t ∧ EdgeIsLate t :=
  ⟨by decide, by decide, _, _, rfl, by decide, rfl, by decide⟩

theorem witness_late_edge : EdgeIsLate lateState ∧ edgeGap lateState.toBlock = lateState.params.gapMs.toNat + 1 := by
  decide

theorem witness_FrameBitOrder : EdgeIsLate lateState := witness_late_edge.1
theorem witness_FrameEventsCaptureThePacket : EdgeIsLate lateState := witness_late_edge.1
theorem witness_LatestPacketWins : EdgeIsLate lateState := witness_late_edge.1

/-- The elapsed time at GAP_MS exactly, at the largest GAP_MS the premise allows. -/
theorem witness_TickAndEdgeOrderMatters :
    edgeGap { Block.powerOn with now := 0xFFFFFFFE#32 } = (gapOf 0xFFFFFFFE).gapMs.toNat ∧
    (gapOf 0xFFFFFFFE).gapMs.toNat + 1 < 2 ^ 32 := by decide

/-- Both ways not to accept: no flag, and a duplicate. -/
theorem witness_NonAcceptingPollsChangeNothing :
    ¬ PollIsDue { Block.powerOn with ready := 1#32 } ∧ ¬ PollIsDue { Block.powerOn with rdy := true } := by decide

theorem witness_DecodeExactlyOnce :
    (∃ t, exec .poll readyState = .next t) ∧ edges [.tick, .poll, .trig, .poll] = 0 ∧
    Instr.reset ∉ [Instr.tick, .poll, .trig, .poll] ∧
    PollIsDue readyState.toBlock ∧ Instr.poll ∈ [Instr.tick, .poll, .trig, .poll] ∧
    ¬ (PollIsDue readyState.toBlock ∧ Instr.poll ∈ [Instr.tick]) ∧ ¬ PollIsDue dueState.toBlock :=
  ⟨⟨_, rfl⟩, by decide, by decide, by decide, by decide, by decide, by decide⟩

/-- Packets that differ in bits 1, 2 and 24 to 31 alone. -/
theorem witness_DecodeFields :
    (∀ i, i < 24 → i ≠ 1 → i ≠ 2 → (0x00379000#32).getLsbD i = (0xFF379006#32).getLsbD i) ∧
    (0x00379000#32) ≠ 0xFF379006#32 := by decide

theorem witness_ReversalLaws : (0x00ABCDEF#32).setWidth 24 = (0xFFABCDEF#32).setWidth 24 := by decide

theorem witness_TextLength :
    ({ unit := .mm, sign := true, magnitude := 1048575#20 } : Measurement).unit = .mm ∧
    ({ unit := .inch, sign := false, magnitude := 0#20 } : Measurement).unit = .inch := by decide

theorem witness_PollOfAFrameSpellsTheMeasurement :
    readyState.ready = framePacket { unit := .mm, sign := false, magnitude := 2540#20 } ∧ readyState.rdy = true ∧
    readyState.lastPkt ≠ readyState.ready := by decide

theorem witness_MeasurementEndToEnd :
    EdgeIsLate lateState ∧ lateState.params.gapMs.toNat + 1 < 2 ^ 32 ∧
    framePacket { unit := .inch, sign := true, magnitude := 1000#20 } ≠ lateState.lastPkt := by decide

theorem ticks_waitEvents (n : Nat) : ticks (waitEvents n) = n := by
  simp [ticks, waitEvents]

theorem reset_notMem_waitEvents (n : Nat) : Instr.reset ∉ waitEvents n := by
  simp [waitEvents]

/-- The first two clauses at 500 TICKs, with a measurement retained and, without one, with EMIT_EMPTY. -/
theorem witness_TriggersAreRateLimited_within :
    Instr.reset ∉ waitEvents 500 ∧ ticks (waitEvents 500) ≤ 500 ∧ TriggerIsDue dueState.toBlock ∧
    dueState.decValid = true ∧
    (∃ s : State, TriggerIsDue s.toBlock ∧ s.decValid = false ∧ s.params.emptyReplay = .emitEmpty) :=
  ⟨reset_notMem_waitEvents 500, (ticks_waitEvents 500).le, by decide, by decide,
    { lateState with now := 501#32, params := { lateState.params with emptyReplay := .emitEmpty } }, by decide⟩

/-- The third clause at its boundary: two accepted triggers 501 TICKs apart. -/
theorem witness_TriggersAreRateLimited_apart :
    TriggerIsDue dueState.toBlock ∧ Instr.reset ∉ waitEvents 501 ∧
    ∃ t u, exec .trig dueState = .next t ∧ runEvents (waitEvents 501) t = .next u ∧ u.lastTrig = t.lastTrig ∧
      TriggerIsDue u.toBlock :=
  ⟨by decide, reset_notMem_waitEvents 501, _, _, rfl, runEvents_eq_effects _ _, by
    simp only [State.onBlock_toBlock, effects_waitEvents], by
    simp only [State.onBlock_toBlock, effects_waitEvents]; decide⟩

theorem witness_TriggerAfterReset :
    Instr.reset ∉ waitEvents 500 ∧ ticks (waitEvents 500) ≤ 500 ∧ ticks (waitEvents 500) = 500 :=
  ⟨reset_notMem_waitEvents 500, (ticks_waitEvents 500).le, ticks_waitEvents 500⟩

theorem witness_KeystrokeCapabilityIsFixed : ∀ text, Record.replayEmpty ≠ .replay text := by
  simp

/-- Both sides of the threshold, n = GAP_MS and n = GAP_MS + 1. -/
theorem witness_FirstEdgeAfterReset :
    5 < 2 ^ 32 ∧ ¬ lateState.params.gapMs.toNat < 5 ∧ lateState.params.gapMs.toNat < 6 := by decide

/-- Elapsed times of 2^32 + G and 2^32 + G + 1 are judged on either side of the threshold. -/
theorem witness_ElapsedTimeIsModular :
    TriggerIsDue dueState.toBlock ∧ ¬ 500 < (2 ^ 32 + 500) % 2 ^ 32 ∧ 500 < (2 ^ 32 + 501) % 2 ^ 32 ∧
    ¬ lateState.params.gapMs.toNat < (2 ^ 32 + 5) % 2 ^ 32 ∧ lateState.params.gapMs.toNat < (2 ^ 32 + 6) % 2 ^ 32 := by
  decide

theorem witness_ReadyFlagRule : ∃ t, exec .poll readyState = .next t ∧ t.rdy ≠ readyState.rdy := ⟨_, rfl, by decide⟩

theorem witness_RefusedMarkIsSticky :
    (∃ t, exec .reset (stateOf { Block.powerOn with refused := true } 5 []) = .next t ∧ t.refused = true) ∧
    decode 0x81#8 = .error .strayLevel ∧ (stateOf Block.powerOn 5 [0x81#8]).pending = [0x81#8] ∧
    ∃ s t : State, s.refused = true ∧ s.pending = [0xC0#8] ∧ step s = .next t :=
  ⟨⟨_, rfl, by decide⟩, by decide, by decide, stateOf { Block.powerOn with refused := true } 5 [0xC0#8], _, by decide,
    by decide, rfl⟩

/-- Each way to append a record. -/
theorem witness_OutputLogOnlyGrows :
    (∃ t, exec .poll readyState = .next t ∧ t.out ≠ readyState.out) ∧
    (∃ t, exec .trig dueState = .next t ∧ t.out ≠ dueState.out) ∧ ∃ s t : State, step s = .next t :=
  ⟨⟨_, rfl, by decide⟩, ⟨_, rfl, by decide⟩, readyState, _, rfl⟩

theorem witness_RegistersHaveTheirWriters :
    ∃ t, exec (.clkFall 0#1) lateState = .next t ∧ Instr.clkFall 0#1 ≠ .reset ∧ t.ready ≠ lateState.ready ∧
      t.rdy ≠ lateState.rdy := ⟨_, rfl, by decide, by decide, by decide⟩

/-- The four clauses: two capture states that agree on RAW, LAST_T and NOW alone, two consumer states that differ in
RAW, LAST_T, REFUSED and OUT alone. -/
theorem witness_ContextsKeepToTheirDuties :
    (∃ t t', exec (.clkFall 0#1) lateState = .next t ∧
      exec (.clkFall 0#1) { lateState with ready := 1#32, rdy := true, lastPkt := 2#32 } = .next t') ∧
    (∃ t t', exec .poll readyState = .next t ∧
      exec .poll { readyState with raw := 1#32, lastT := 2#32, refused := true, out := [.replayEmpty] } = .next t') ∧
    ∃ t, exec .trig dueState = .next t :=
  ⟨⟨_, _, rfl, rfl⟩, ⟨_, _, rfl, rfl⟩, _, rfl⟩

theorem witness_FrameInProgressIsInvisible :
    edges [.poll, .trig, .reset, .tick, .clkRise] = 0 ∧
    ({ readyState with raw := 1#32, lastT := 2#32 } : State).toBlock =
      { readyState.toBlock with raw := 1#32, lastT := 2#32 } := by decide

theorem readyState_consistent : Consistent readyState.toBlock :=
  ⟨by decide, by decide, by decide⟩

/-- A consistent state with a packet to accept, and the POLL that accepts it next. -/
theorem witness_StepKeepsTheInvariants :
    ∃ s t : State, Consistent s.toBlock ∧ step s = .next t ∧ t.decValid = true :=
  ⟨{ readyState with pending := [0x80#8] }, _, readyState_consistent, rfl, by decide⟩

/-- RAW at its largest for 31 edges, and a count that stays within 32. -/
theorem witness_ReachableStatesMeetTheInvariants :
    (0x7FFFFFFF#32).toNat < 2 ^ 31 ∧ edgesSincePublish [.clkFall 0#1] (State.resetWith (gapOf 0xFFFFFFFF)) 0 ≤ 32 := by
  decide

/-- A retained measurement that is the last broadcast, and a step from it. -/
theorem witness_RetainedMeasurementIsTheLastBroadcast :
    ∃ s t : State, RetainedIsLastBroadcast s.toBlock ∧ s.decValid = true ∧ step s = .next t :=
  ⟨{ dueState with out := [.bcast "25.4000mm\n".toList], pending := [0xA0#8] }, _,
    (by decide : _ → (bcasts [Record.bcast "25.4000mm\n".toList]).getLast? = some (textOf dueState.measurement)),
    by decide, rfl⟩

end Sys2Proof.Tests
end

section
/-! PROOFS, the layer under the state's statements. What an edge, a POLL and a TRIG do by the test each makes, in the
terms the statements use, and what each leaves unchanged. -/

namespace Sys2Proof.Machine

open Sys2Proof.Safety

/-! ## The three events that decide something, by what they find -/

/-- A late edge publishes (40_capture.md R101 step 3). -/
theorem fallingEdge_of_late {s : State} (h : EdgeIsLate s) (d : Bit) :
    s.fallingEdge s.params.gapMs d = (s.publish (dataBit d)).stampEdge := by
  simp [Block.fallingEdge, (newFrame_iff s).mpr h]

/-- An edge in time shifts its bit in (40_capture.md R101 step 4). -/
theorem fallingEdge_of_not_late {s : State} (h : ¬ EdgeIsLate s) (d : Bit) :
    s.fallingEdge s.params.gapMs d = (s.shiftBit (dataBit d)).stampEdge := by
  simp [Block.fallingEdge, mt (newFrame_iff s).mp h]

theorem decodeLoop_of_due {b : Block} (h : PollIsDue b) :
    b.decodeLoop = (b.acknowledge.consume b.ready).emit (.bcast (textOf (decodePacket b.ready))) := by
  simp [Block.decodeLoop, (pollAccepts_iff b).mpr h]

theorem decodeLoop_of_not_due {b : Block} (h : ¬ PollIsDue b) : b.decodeLoop = b := by
  simp [Block.decodeLoop, mt (pollAccepts_iff b).mp h]

theorem trigger_of_not_due {b : Block} (h : ¬ TriggerIsDue b) (e : Config.EmptyReplay) : b.trigger e = b := by
  simp [Block.trigger, mt (debounced_iff b).mp h]

/-! ## Frames -/

/-- An edge writes RAW, READY, RDY and LAST_T alone (10_state.md R34). -/
theorem fallingEdge_frame (g : Time) (d : Bit) (b : Block) :
    b.fallingEdge g d = { b with
      raw := (b.fallingEdge g d).raw, ready := (b.fallingEdge g d).ready, rdy := (b.fallingEdge g d).rdy
      lastT := (b.fallingEdge g d).lastT } := by
  rcases fallingEdge_cases g d b with ⟨-, h⟩ | ⟨-, h⟩ <;> rw [h] <;> rfl

/-- A POLL writes RDY, LAST_PKT, the DEC registers and OUT alone (10_state.md R34). -/
theorem decodeLoop_frame (b : Block) :
    b.decodeLoop = { b with
      rdy := b.decodeLoop.rdy, lastPkt := b.decodeLoop.lastPkt, decValid := b.decodeLoop.decValid
      decUnit := b.decodeLoop.decUnit, decSign := b.decodeLoop.decSign, decMag := b.decodeLoop.decMag
      out := b.decodeLoop.out } := by
  rcases decodeLoop_cases b with ⟨-, h⟩ | ⟨-, h⟩
  · rw [h]; rfl
  · rw [h]

/-- A TRIG writes LAST_TRIG and OUT alone (10_state.md R34). -/
theorem trigger_frame (e : Config.EmptyReplay) (b : Block) :
    b.trigger e = { b with lastTrig := (b.trigger e).lastTrig, out := (b.trigger e).out } := by
  rcases trigger_cases e b with ⟨-, -, h⟩ | ⟨-, -, -, h⟩ | ⟨-, -, -, h⟩ | ⟨-, h⟩ <;> rw [h] <;> rfl

section
variable (g : Time) (d : Bit) (e : Config.EmptyReplay) (b : Block)

@[simp] theorem fallingEdge_now : (b.fallingEdge g d).now = b.now := (congrArg Block.now (fallingEdge_frame g d b) :)
@[simp] theorem fallingEdge_lastPkt : (b.fallingEdge g d).lastPkt = b.lastPkt :=
  (congrArg Block.lastPkt (fallingEdge_frame g d b) :)
@[simp] theorem fallingEdge_decValid : (b.fallingEdge g d).decValid = b.decValid :=
  (congrArg Block.decValid (fallingEdge_frame g d b) :)
@[simp] theorem fallingEdge_measurement : (b.fallingEdge g d).measurement = b.measurement :=
  (congrArg Block.measurement (fallingEdge_frame g d b) :)
@[simp] theorem fallingEdge_lastTrig : (b.fallingEdge g d).lastTrig = b.lastTrig :=
  (congrArg Block.lastTrig (fallingEdge_frame g d b) :)
@[simp] theorem fallingEdge_refused : (b.fallingEdge g d).refused = b.refused :=
  (congrArg Block.refused (fallingEdge_frame g d b) :)
@[simp] theorem fallingEdge_out : (b.fallingEdge g d).out = b.out := (congrArg Block.out (fallingEdge_frame g d b) :)

@[simp] theorem decodeLoop_raw : b.decodeLoop.raw = b.raw := (congrArg Block.raw (decodeLoop_frame b) :)
@[simp] theorem decodeLoop_ready : b.decodeLoop.ready = b.ready := (congrArg Block.ready (decodeLoop_frame b) :)
@[simp] theorem decodeLoop_lastT : b.decodeLoop.lastT = b.lastT := (congrArg Block.lastT (decodeLoop_frame b) :)
@[simp] theorem decodeLoop_now : b.decodeLoop.now = b.now := (congrArg Block.now (decodeLoop_frame b) :)
@[simp] theorem decodeLoop_lastTrig : b.decodeLoop.lastTrig = b.lastTrig :=
  (congrArg Block.lastTrig (decodeLoop_frame b) :)
@[simp] theorem decodeLoop_refused : b.decodeLoop.refused = b.refused := (congrArg Block.refused (decodeLoop_frame b) :)

@[simp] theorem trigger_raw : (b.trigger e).raw = b.raw := (congrArg Block.raw (trigger_frame e b) :)
@[simp] theorem trigger_ready : (b.trigger e).ready = b.ready := (congrArg Block.ready (trigger_frame e b) :)
@[simp] theorem trigger_rdy : (b.trigger e).rdy = b.rdy := (congrArg Block.rdy (trigger_frame e b) :)
@[simp] theorem trigger_lastT : (b.trigger e).lastT = b.lastT := (congrArg Block.lastT (trigger_frame e b) :)
@[simp] theorem trigger_now : (b.trigger e).now = b.now := (congrArg Block.now (trigger_frame e b) :)
@[simp] theorem trigger_lastPkt : (b.trigger e).lastPkt = b.lastPkt := (congrArg Block.lastPkt (trigger_frame e b) :)
@[simp] theorem trigger_decValid : (b.trigger e).decValid = b.decValid :=
  (congrArg Block.decValid (trigger_frame e b) :)
@[simp] theorem trigger_measurement : (b.trigger e).measurement = b.measurement :=
  (congrArg Block.measurement (trigger_frame e b) :)
@[simp] theorem trigger_refused : (b.trigger e).refused = b.refused := (congrArg Block.refused (trigger_frame e b) :)

end

/-! ## What any event does to one register -/

/-- RDY after an edge (10_state.md R23). -/
theorem fallingEdge_rdy (s : State) (d : Bit) :
    (s.fallingEdge s.params.gapMs d).rdy = if EdgeIsLate s then true else s.rdy := by
  by_cases h : EdgeIsLate s
  · rw [fallingEdge_of_late h, if_pos h]; rfl
  · rw [fallingEdge_of_not_late h, if_neg h]; rfl

/-- RDY after a POLL (10_state.md R23). -/
theorem decodeLoop_rdy (b : Block) : b.decodeLoop.rdy = if PollIsDue b then false else b.rdy := by
  by_cases h : PollIsDue b
  · rw [decodeLoop_of_due h, if_pos h]; rfl
  · rw [decodeLoop_of_not_due h, if_neg h]

/-- No event changes REFUSED (10_state.md R29). -/
@[simp] theorem effect_refused (p : Config.Params) (i : Instr) (b : Block) : (effect p i b).refused = b.refused := by
  cases i <;> simp [effect]

/-- Only an edge and RESET write RAW, READY and LAST_T (10_state.md R34). -/
theorem effect_keeps_capture (p : Config.Params) {i : Instr} (b : Block) (hi : isEdge i = false) (hr : i ≠ .reset) :
    (effect p i b).raw = b.raw ∧ (effect p i b).ready = b.ready ∧ (effect p i b).lastT = b.lastT := by
  cases i with
  | clkFall d => cases hi
  | reset => exact absurd rfl hr
  | clkRise | tick | poll | trig => simp [effect]

/-- Only TICK and RESET write NOW (40_capture.md R105). -/
theorem effect_now (p : Config.Params) {i : Instr} (b : Block) (ht : i ≠ .tick) (hr : i ≠ .reset) :
    (effect p i b).now = b.now := by
  cases i with
  | tick => exact absurd rfl ht
  | reset => exact absurd rfl hr
  | clkFall | clkRise | poll | trig => simp [effect]

/-- Only an accepting POLL and RESET write LAST_PKT, DEC_VALID and the retained measurement (10_state.md R34). -/
theorem effect_keeps_retained (p : Config.Params) {i : Instr} {b : Block} (hp : i = .poll → ¬ PollIsDue b)
    (hr : i ≠ .reset) :
    (effect p i b).lastPkt = b.lastPkt ∧ (effect p i b).decValid = b.decValid ∧
      (effect p i b).measurement = b.measurement := by
  cases i with
  | poll => simp [effect, decodeLoop_of_not_due (hp rfl)]
  | reset => exact absurd rfl hr
  | clkFall | clkRise | tick | trig => simp [effect]

/-- Only an accepted TRIG and RESET write LAST_TRIG (10_state.md R34). -/
theorem effect_lastTrig (p : Config.Params) {i : Instr} {b : Block} (ht : i = .trig → ¬ TriggerIsDue b)
    (hr : i ≠ .reset) : (effect p i b).lastTrig = b.lastTrig := by
  cases i with
  | trig => simp [effect, trigger_of_not_due (ht rfl)]
  | reset => exact absurd rfl hr
  | clkFall | clkRise | tick | poll => simp [effect]

/-- RDY is set by an edge alone, and cleared by a POLL or RESET alone (10_state.md R23, R34). -/
theorem effect_rdy_cases (i : Instr) (s : State) (hr : i ≠ .reset) :
    (effect s.params i s.toBlock).rdy = s.rdy ∨
    (isEdge i = true ∧ (effect s.params i s.toBlock).rdy = true) ∨
    (i = .poll ∧ (effect s.params i s.toBlock).rdy = false) := by
  cases i with
  | clkFall d =>
    by_cases h : EdgeIsLate s
    · exact .inr (.inl ⟨rfl, by rw [effect, fallingEdge_rdy, if_pos h]⟩)
    · exact .inl (by rw [effect, fallingEdge_rdy, if_neg h])
  | poll =>
    by_cases h : PollIsDue s.toBlock
    · exact .inr (.inr ⟨rfl, by rw [effect, decodeLoop_rdy, if_pos h]⟩)
    · exact .inl (by rw [effect, decodeLoop_rdy, if_neg h])
  | reset => exact absurd rfl hr
  | clkRise | tick | trig => exact .inl (by simp [effect])

/-- What an event appends to OUT: nothing, or the one record that an accepting POLL or an accepted TRIG emits
(10_state.md R33). -/
theorem effect_out_cases (p : Config.Params) (i : Instr) (b : Block) :
    (effect p i b).out = b.out ∨
    (i = .poll ∧ PollIsDue b ∧ (effect p i b).out = b.out ++ [.bcast (textOf (decodePacket b.ready))]) ∨
    (i = .trig ∧ TriggerIsDue b ∧ b.decValid = true ∧
      (effect p i b).out = b.out ++ [.replay (textOf b.measurement)]) ∨
    (i = .trig ∧ TriggerIsDue b ∧ b.decValid = false ∧ p.emptyReplay = .emitEmpty ∧
      (effect p i b).out = b.out ++ [.replayEmpty]) := by
  cases i with
  | poll =>
    by_cases h : PollIsDue b
    · exact .inr (.inl ⟨rfl, h, by rw [effect, decodeLoop_of_due h]; rfl⟩)
    · exact .inl (by rw [effect, decodeLoop_of_not_due h])
  | trig =>
    rw [effect, ← debounced_iff]
    rcases trigger_cases p.emptyReplay b with ⟨hd, hv, h⟩ | ⟨hd, hv, he, h⟩ | ⟨-, -, -, h⟩ | ⟨-, h⟩
    · exact .inr (.inr (.inl ⟨rfl, hd, hv, by rw [h]; rfl⟩))
    · exact .inr (.inr (.inr ⟨rfl, hd, hv, he, by rw [h]; rfl⟩))
    · exact .inl (by rw [h]; rfl)
    · exact .inl (by rw [h])
  | clkFall | clkRise | tick | reset => exact .inl (by simp [effect])

theorem effect_out_extends (p : Config.Params) (i : Instr) (b : Block) : b.out <+: (effect p i b).out := by
  rcases effect_out_cases p i b with h | ⟨-, -, h⟩ | ⟨-, -, -, h⟩ | ⟨-, -, -, -, h⟩ <;> rw [h]
  all_goals exact List.prefix_append ..

/-! ## Steps and sequences -/

/-- What every event and every refusal keeps, every step keeps. -/
theorem step_preserves {P : Block → Prop} (event : ∀ p i b, P b → P (effect p i b))
    (refusal : ∀ b : Block, P b → P { b with refused := true }) {s t : State} (hs : P s.toBlock)
    (h : step s = .next t) : P t.toBlock := by
  rcases step_cases h with ⟨-, rfl⟩ | ⟨w, ws, i, -, -, rfl⟩ | ⟨w, ws, c, -, -, rfl⟩
  · exact hs
  · exact event _ _ _ hs
  · exact refusal _ hs

/-- What every event keeps, every sequence keeps. -/
theorem effects_preserves {P : Block → Prop} {p : Config.Params} (event : ∀ i b, P b → P (effect p i b))
    (es : List Instr) {b : Block} (hb : P b) : P (effects p es b) := by
  induction es generalizing b with
  | nil => exact hb
  | cons i es ih => exact ih (event i b hb)

/-- The step on a word that 30_encoding.md R83 refuses. -/
theorem step_of_refused {s : State} {w : EventWord} {ws : List EventWord} {c : RefusalCode}
    (hp : s.pending = w :: ws) (hd : decode w = .error c) :
    step s = .next (State.refuse c { s with pending := ws }) := by
  simp only [step, State.nextWord?_cons s w ws hp, hd]

end Sys2Proof.Machine
end

section
/-! PROOFS. The frame in progress (10_state.md R21): no event but an edge reads RAW or LAST_T. -/

namespace Sys2Proof.Machine

open Sys2Proof.Safety

/-- The two blocks differ in RAW and LAST_T alone. -/
def AgreeOutsideFrame (b b' : Block) : Prop :=
  b' = { b with raw := b'.raw, lastT := b'.lastT }

theorem agreeOutsideFrame_iff {b b' : Block} :
    AgreeOutsideFrame b b' ↔ ∃ raw lastT, b' = { b with raw := raw, lastT := lastT } :=
  ⟨fun h => ⟨_, _, h⟩, by rintro ⟨raw, lastT, rfl⟩; rfl⟩

theorem decodeLoop_frame_unread (b : Block) (raw : Packet) (lastT : Time) :
    Block.decodeLoop { b with raw := raw, lastT := lastT } = { b.decodeLoop with raw := raw, lastT := lastT } := by
  by_cases h : PollIsDue b
  · rw [decodeLoop_of_due h, decodeLoop_of_due (b := { b with raw := raw, lastT := lastT }) h]; rfl
  · rw [decodeLoop_of_not_due h, decodeLoop_of_not_due (b := { b with raw := raw, lastT := lastT }) h]

theorem replay_frame_unread (e : Config.EmptyReplay) (b : Block) (raw : Packet) (lastT : Time) :
    Block.replay e { b with raw := raw, lastT := lastT } = { b.replay e with raw := raw, lastT := lastT } := by
  cases h : b.decValid
  · cases e <;> simp [Block.replay, h, Block.emit]
  · simp [Block.replay, h, Block.emit, Block.measurement]

theorem trigger_frame_unread (e : Config.EmptyReplay) (b : Block) (raw : Packet) (lastT : Time) :
    Block.trigger e { b with raw := raw, lastT := lastT } = { b.trigger e with raw := raw, lastT := lastT } := by
  cases h : debounced b.lastTrig b.now
  · simp only [Block.trigger, h]; rfl
  · simp only [Block.trigger, h]; exact replay_frame_unread e b.stampTrigger raw lastT

/-- An event that is no edge keeps the agreement. -/
theorem AgreeOutsideFrame.effect {b b' : Block} (h : AgreeOutsideFrame b b') (p : Config.Params) {i : Instr}
    (hi : isEdge i = false) : AgreeOutsideFrame (effect p i b) (effect p i b') := by
  obtain ⟨raw, lastT, rfl⟩ := agreeOutsideFrame_iff.mp h
  rw [agreeOutsideFrame_iff]
  cases i with
  | clkFall d => cases hi
  | clkRise | tick => exact ⟨raw, lastT, rfl⟩
  | poll => exact ⟨raw, lastT, decodeLoop_frame_unread b raw lastT⟩
  | trig => exact ⟨raw, lastT, trigger_frame_unread p.emptyReplay b raw lastT⟩
  | reset => exact ⟨0#32, 0#32, rfl⟩

theorem AgreeOutsideFrame.effects {b b' : Block} (h : AgreeOutsideFrame b b') (p : Config.Params) {es : List Instr}
    (hes : edges es = 0) : AgreeOutsideFrame (effects p es b) (effects p es b') := by
  induction es generalizing b b' with
  | nil => exact h
  | cons i es ih =>
    simp only [edges, List.countP_eq_zero, List.forall_mem_cons, Bool.not_eq_true] at hes ih
    exact ih (h.effect p hes.1) hes.2

end Sys2Proof.Machine
end

section
/-! PROOFS. The invariants of 10_state.md R36 under each operation, under each event, and along a sequence. -/

namespace Sys2Proof.Safety

open Sys2Proof.Machine

/-! ## The retained measurement at the start of a run (41_decode.md R145) -/

theorem retainedIsLastBroadcast_powerOn : RetainedIsLastBroadcast Block.powerOn :=
  nofun

/-! ## Items 1 to 3 -/

theorem consistent_powerOn : Consistent Block.powerOn :=
  ⟨fun _ => rfl, fun _ => ⟨rfl, rfl, rfl, rfl⟩, nofun⟩

/-- A publish sets RDY, so it leaves item 1 nothing to say. -/
theorem Consistent.publish {b : Block} (h : Consistent b) (x : Bit) : Consistent (b.publish x) :=
  ⟨nofun, h.never_decoded, h.decoded⟩

/-- An acknowledged packet is remembered, so the mailbox is empty again and the measurement is that packet's. -/
theorem consistent_consume_ready (b : Block) : Consistent (b.acknowledge.consume b.ready) :=
  ⟨fun _ => rfl, nofun, fun _ => rfl⟩

theorem consistent_clear (b : Block) : Consistent b.clear :=
  ⟨fun _ => rfl, fun _ => ⟨rfl, rfl, rfl, rfl⟩, nofun⟩

section
variable {b : Block} (h : Consistent b)
include h

theorem Consistent.shiftBit (x : Bit) : Consistent (b.shiftBit x) := ⟨h.mailbox_empty, h.never_decoded, h.decoded⟩
theorem Consistent.stampEdge : Consistent b.stampEdge := ⟨h.mailbox_empty, h.never_decoded, h.decoded⟩
theorem Consistent.advanceTime : Consistent b.advanceTime := ⟨h.mailbox_empty, h.never_decoded, h.decoded⟩
theorem Consistent.stampTrigger : Consistent b.stampTrigger := ⟨h.mailbox_empty, h.never_decoded, h.decoded⟩
theorem Consistent.emit (r : Record) : Consistent (b.emit r) := ⟨h.mailbox_empty, h.never_decoded, h.decoded⟩
theorem Consistent.markRefused : Consistent { b with refused := true } :=
  ⟨h.mailbox_empty, h.never_decoded, h.decoded⟩

theorem Consistent.fallingEdge (g : Time) (d : Bit) : Consistent (b.fallingEdge g d) := by
  rcases fallingEdge_cases g d b with ⟨-, he⟩ | ⟨-, he⟩ <;> rw [he]
  · exact (h.publish _).stampEdge
  · exact (h.shiftBit _).stampEdge

theorem Consistent.decodeLoop : Consistent b.decodeLoop := by
  rcases decodeLoop_cases b with ⟨-, he⟩ | ⟨-, he⟩ <;> rw [he]
  · exact (consistent_consume_ready b).emit _
  · exact h

theorem Consistent.trigger (e : Config.EmptyReplay) : Consistent (b.trigger e) := by
  rcases trigger_cases e b with ⟨-, -, he⟩ | ⟨-, -, -, he⟩ | ⟨-, -, -, he⟩ | ⟨-, he⟩ <;> rw [he]
  · exact h.stampTrigger.emit _
  · exact h.stampTrigger.emit _
  · exact h.stampTrigger
  · exact h

/-- Every event keeps items 1 to 3 of R36. -/
theorem Consistent.effect (p : Config.Params) (i : Instr) : Consistent (effect p i b) := by
  cases i with
  | clkFall d => exact h.fallingEdge p.gapMs d
  | clkRise => exact h
  | tick => exact h.advanceTime
  | poll => exact h.decodeLoop
  | trig => exact h.trigger p.emptyReplay
  | reset => exact consistent_clear b

end

/-! ## Item 4 -/

theorem edgesSincePublish_cons (i : Instr) (es : List Instr) (s : State) (n : Nat) :
    edgesSincePublish (i :: es) s n =
      edgesSincePublish es (s.onBlock (effect s.params i)) (edgeCountAfter i s n) := by
  simp only [edgesSincePublish, exec_eq_effect]

theorem publish_raw_lt (x : Bit) (b : Block) : (b.publish x).raw.toNat < 2 ^ 1 := by
  have hx := x.isLt
  rw [Block.publish_raw, BitVec.toNat_setWidth]
  omega

theorem shiftIn_toNat_lt {raw : Packet} {n : Nat} (h : raw.toNat < 2 ^ n) (x : Bit) :
    (shiftIn raw x).toNat < 2 ^ (n + 1) := by
  have hx := x.isLt
  rw [shiftIn_toNat]
  omega

/-- RAW fits the edges counted after one more event. -/
theorem effect_raw_lt (i : Instr) {s : State} {n : Nat} (h : s.raw.toNat < 2 ^ n) :
    (effect s.params i s.toBlock).raw.toNat < 2 ^ edgeCountAfter i s n := by
  cases i with
  | clkFall d =>
    by_cases hl : EdgeIsLate s
    · rw [effect, fallingEdge_of_late hl, edgeCountAfter, if_pos hl]
      exact publish_raw_lt (dataBit d) s.toBlock
    · rw [effect, fallingEdge_of_not_late hl, edgeCountAfter, if_neg hl]
      exact shiftIn_toNat_lt h _
  | reset => exact Nat.one_pos
  | clkRise | tick | poll | trig => simpa [effect, edgeCountAfter] using h

/-- RAW fits the edges counted after a sequence (10_state.md R36 item 4). -/
theorem effects_raw_lt (es : List Instr) {s : State} {n : Nat} (h : s.raw.toNat < 2 ^ n) :
    (effects s.params es s.toBlock).raw.toNat < 2 ^ edgesSincePublish es s n := by
  induction es generalizing s n with
  | nil => exact h
  | cons i es ih =>
    rw [edgesSincePublish_cons]
    exact ih (s := s.onBlock (effect s.params i)) (effect_raw_lt i h)

end Sys2Proof.Safety
end

section
/-! PROOFS. The state's obligations, assembled from the lemmas above. -/

namespace Sys2Proof.Proofs

open Sys2Proof Sys2Proof.Machine Sys2Proof.Safety

/-- Settles O49: no event but an edge reads RAW or LAST_T, and the agreement outside them goes along the sequence. -/
theorem frameInProgressIsInvisible : Obligations.FrameInProgressIsInvisible := by
  intro es s s' hes hb hp
  refine ⟨_, _, runEvents_eq_effects es s, runEvents_eq_effects es s', ?_⟩
  rw [hp]
  exact AgreeOutsideFrame.effects (b := s.toBlock) hb s.params hes

/-- Settles O50: every event and every refusal keeps the invariants, so every step does. -/
theorem stepKeepsTheInvariants : Obligations.StepKeepsTheInvariants :=
  fun _ _ hs h => step_preserves (fun p i _ hb => hb.effect p i) (fun _ hb => hb.markRefused) hs h

/-- Settles O52: items 1 to 3 by the invariant along the sequence, item 4 by the bound on RAW along it. -/
theorem reachableStatesMeetTheInvariants : Obligations.ReachableStatesMeetTheInvariants := by
  refine ⟨fun p es => ⟨_, runEvents_eq_effects es _, ?_, fun _ => ?_⟩,
    fun es s n h => ⟨_, runEvents_eq_effects es s, effects_raw_lt es h⟩⟩
  · exact effects_preserves (fun i _ hb => hb.effect p i) es consistent_powerOn
  · exact effects_raw_lt es (s := State.resetWith p) Nat.one_pos

/-- Settles O44, event by event. -/
theorem readyFlagRule : Obligations.ReadyFlagRule := by
  refine ⟨rfl, fun i s t h => ?_⟩
  obtain rfl := exec_next_iff.mp h
  cases i with
  | clkFall d => exact fallingEdge_rdy s d
  | poll => exact decodeLoop_rdy s.toBlock
  | trig => exact trigger_rdy s.params.emptyReplay s.toBlock
  | clkRise | tick | reset => rfl

/-- Settles O45: no event writes REFUSED, and a refusal sets it. -/
theorem refusedMarkIsSticky : Obligations.RefusedMarkIsSticky := by
  refine ⟨rfl, fun i s t h => ?_, fun s w ws c hp hd => ⟨_, step_of_refused hp hd, rfl⟩, fun s t hs h => ?_⟩
  · obtain rfl := exec_next_iff.mp h
    exact effect_refused s.params i s.toBlock
  · exact step_preserves (P := fun b => b.refused = true)
      (fun p i b hb => (effect_refused p i b).trans hb) (fun _ _ => rfl) hs h

/-- Settles O46: the records by the cases of one event, the growth by what every step keeps. -/
theorem outputLogOnlyGrows : Obligations.OutputLogOnlyGrows := by
  refine ⟨fun i s t h => ?_, fun s t h => ?_⟩
  · obtain rfl := exec_next_iff.mp h
    rcases effect_out_cases s.params i s.toBlock with h | ⟨hi, hd, h⟩ | ⟨hi, hd, hv, h⟩ | h
    · exact .inl h
    · exact .inr (.inl ⟨hi, hd, _, h⟩)
    · exact .inr (.inr (.inl ⟨hi, hd, hv, _, h⟩))
    · exact .inr (.inr (.inr h))
  · exact step_preserves (P := fun b => s.out <+: b.out)
      (fun p i b hb => hb.trans (effect_out_extends p i b)) (fun _ hb => hb) List.prefix_rfl h

/-- Settles O47: each register is kept by every event that is none of its writers. -/
theorem registersHaveTheirWriters : Obligations.RegistersHaveTheirWriters := by
  intro i s t h hr
  obtain rfl := exec_next_iff.mp h
  refine ⟨fun hw => ?_, (effect_rdy_cases i s hr).resolve_left, fun hw => ?_, fun hw => ?_, fun hw => ?_⟩
  · by_contra hi
    obtain ⟨hraw, hready, hlastT⟩ := effect_keeps_capture s.params s.toBlock (Bool.eq_false_iff.mpr hi) hr
    simp [hraw, hready, hlastT] at hw
  · by_contra hi
    exact hw (effect_now s.params s.toBlock hi hr)
  · by_contra hi
    obtain ⟨hpkt, hvalid, hmeas⟩ := effect_keeps_retained s.params (fun hp hd => hi ⟨hp, hd⟩) hr
    obtain ⟨hunit, hsign, hmag⟩ := Measurement.mk.inj hmeas
    simp [hpkt, hvalid, hunit, hsign, hmag] at hw
  · by_contra hi
    exact hw (effect_lastTrig s.params (fun ht hd => hi ⟨ht, hd⟩) hr)

/-- Settles O41: the start of a run is `Block.powerOn`, which RESET writes but for REFUSED and OUT. -/
theorem startOfRun : Obligations.StartOfRun :=
  ⟨rfl, fun _ => rfl, fun s => ⟨_, exec_eq_effect .reset s, rfl⟩, fun i => ⟨_, exec_eq_effect i State.reset⟩⟩

/-- Settles O51: with RDY and DEC_VALID at 0 and everything else 0 there is nothing that could disagree. -/
theorem resetMeetsTheInvariants : Obligations.ResetMeetsTheInvariants :=
  ⟨fun _ => ⟨consistent_powerOn, retainedIsLastBroadcast_powerOn⟩, consistent_powerOn, retainedIsLastBroadcast_powerOn⟩

end Sys2Proof.Proofs
end

section
/-! PROOFS, the layer under the run's statements. What a step does where it waits and where it runs an event, and that
the decoder reads back the word of every event. -/

namespace Sys2Proof.Machine

/-! ## The word of an event (30_encoding.md R80, R81) -/

theorem eventOf_opOf_levelOf (i : Instr) : eventOf (opOf i) (levelOf i) = some i := by
  cases i <;> rfl

theorem encode_wellFormed (i : Instr) : (fieldsOf (encode i)).wellFormed = true := by
  cases i with
  | clkFall d => exact Laws.EncodesWellFormed.clkFall d
  | clkRise => exact Laws.EncodesWellFormed.clkRise
  | tick => exact Laws.EncodesWellFormed.tick
  | poll => exact Laws.EncodesWellFormed.poll
  | trig => exact Laws.EncodesWellFormed.trig
  | reset => exact Laws.EncodesWellFormed.reset

/-- The word is well-formed, so it is not refused, and its fields name the event. -/
@[simp] theorem decode_encode (i : Instr) : decode (encode i) = .ok i := by
  rcases decode_cases (encode i) with ⟨j, hj, -, he⟩ | ⟨c, -, hw, -⟩
  · rw [fieldsOf_encode, eventOf_opOf_levelOf] at he
    rw [hj, Option.some.inj he]
  · cases (encode_wellFormed i).symm.trans hw

/-! ## One step -/

/-- The step where no word is left (20_memory.md R62). -/
theorem step_of_idle {s : State} (hp : s.pending = []) : step s = .next s := by
  simp only [step, State.nextWord?_nil s hp, State.wait_eq]

/-- The step on the word of an event (20_memory.md R52). -/
theorem step_of_event {s : State} {w : EventWord} {ws : List EventWord} {i : Instr}
    (hp : s.pending = w :: ws) (hd : decode w = .ok i) : step s = exec i { s with pending := ws } := by
  simp only [step, State.nextWord?_cons s w ws hp, hd]

/-- The step on an encoded event: its effect on the registers, the later words untouched (20_memory.md R63). -/
theorem step_encode (i : Instr) (ws : List EventWord) (s : State) :
    step { s with pending := encode i :: ws } = .next { s.onBlock (effect s.params i) with pending := ws } :=
  (step_of_event rfl (decode_encode i)).trans (exec_eq_effect i { s with pending := ws })

/-! ## A run -/

theorem run_succ_of_step {s t : State} (k : Nat) (h : step s = .next t) :
    Host.Core.run core (k + 1) s = Host.Core.run core k t := by
  have hc : core.step s = .next t := h
  simp only [Host.Core.run, hc]

theorem runEvents_cons (i : Instr) (es : List Instr) (s : State) :
    runEvents (i :: es) s = runEvents es (s.onBlock (effect s.params i)) := by
  simp only [runEvents, exec_eq_effect]

/-- Stepping through the words of a sequence folds its events, and leaves the words after it (20_memory.md R56). -/
theorem run_encode_eq_runEvents (es : List Instr) (ws : List EventWord) (s : State) :
    Host.Core.run core es.length { s with pending := es.map encode ++ ws } = runEvents es { s with pending := ws } := by
  induction es generalizing s with
  | nil => rfl
  | cons i es ih =>
    have hstep := run_succ_of_step es.length (step_encode i (es.map encode ++ ws) s)
    have hfold := runEvents_cons i es { s with pending := ws }
    exact hstep.trans ((ih (s.onBlock (effect s.params i))).trans hfold.symm)

/-! ## The publish -/

/-- A publishing edge reads neither the earlier packet nor the earlier flag (20_memory.md R55). -/
theorem publish_mailbox_unread (x : Bit) (b : Block) (earlier : Packet) (flag : Bool) :
    Block.publish x { b with ready := earlier, rdy := flag } = b.publish x := rfl

end Sys2Proof.Machine
end

section
/-! PROOFS. The obligations of 20_memory.md, assembled from the lemmas above. -/

namespace Sys2Proof.Proofs

open Sys2Proof Sys2Proof.Machine Sys2Proof.Safety

/-- Settles O11, by induction on the sequence: each step takes one word and runs its event. -/
theorem runIsTheLeftFold : Obligations.RunIsTheLeftFold :=
  run_encode_eq_runEvents

/-- Settles O7: the next word is taken, and it decodes. -/
theorem stepRunsTheDecodedEvent : Obligations.StepRunsTheDecodedEvent :=
  fun _ _ _ _ hp hd => step_of_event hp hd

/-- Settles O8: with no word to take, the step waits. -/
theorem idleStepChangesNothing : Obligations.IdleStepChangesNothing :=
  fun _ hp => step_of_idle hp

/-- Settles O10: an event acts on the spec's registers alone. -/
theorem eventsLeaveInputAndParameters : Obligations.EventsLeaveInputAndParameters := by
  intro i s t h
  obtain rfl := exec_next_iff.mp h
  exact ⟨State.onBlock_pending _ s, State.onBlock_refusals _ s, State.onBlock_params _ s⟩

/-- Settles O21: a late edge publishes, and the publish overwrites the mailbox unread. -/
theorem latestPacketWins : Obligations.LatestPacketWins := by
  intro s d earlier flag hlate
  have hlate' : EdgeIsLate { s with ready := earlier, rdy := flag } := hlate
  refine ⟨s.onBlock fun b => (b.publish (dataBit d)).stampEdge, ?_, rfl, rfl, ?_⟩
  · simp only [exec_eq_effect, effect, State.onBlock, fallingEdge_of_late hlate]
  · simp only [exec_eq_effect, effect, State.onBlock, fallingEdge_of_late hlate', publish_mailbox_unread]

end Sys2Proof.Proofs
end

section
/-! PROOFS, the layer under the encoding's statements: event words. Which words the decoder accepts and which it
refuses, and the written form of an event. -/

namespace Sys2Proof.Machine

/-! ## Words and their fields (30_encoding.md R80 to R83) -/

/-- A word is its three fields, high to low. -/
theorem fieldsOf_append (w : EventWord) : (fieldsOf w).op ++ (fieldsOf w).rsv ++ (fieldsOf w).d = w := by
  ext i hi
  simp only [fieldsOf, BitVec.getElem_append, BitVec.getElem_extractLsb']
  grind

theorem fieldsOf_op_toNat (w : EventWord) : (fieldsOf w).op.toNat = w.toNat / 32 := by
  have := w.isLt
  simp only [fieldsOf, BitVec.extractLsb'_toNat, Nat.shiftRight_eq_div_pow]
  omega

theorem fieldsOf_rsv_toNat (w : EventWord) : (fieldsOf w).rsv.toNat = w.toNat / 2 % 16 := by
  simp only [fieldsOf, BitVec.extractLsb'_toNat, Nat.shiftRight_eq_div_pow]

theorem fieldsOf_d_toNat (w : EventWord) : (fieldsOf w).d.toNat = w.toNat % 2 := by
  simp only [fieldsOf, BitVec.extractLsb'_toNat, Nat.shiftRight_eq_div_pow]
  omega

/-- The checks on a word's fields, over the integers. -/
theorem wellFormed_fieldsOf_iff (w : EventWord) :
    (fieldsOf w).wellFormed = true ↔
      w.toNat / 32 ≠ 0 ∧ w.toNat / 32 ≠ 7 ∧ w.toNat / 2 % 16 = 0 ∧ (w.toNat / 32 = 1 ∨ w.toNat % 2 = 0) := by
  simp [EventFields.wellFormed, ← BitVec.toNat_inj, fieldsOf_op_toNat, fieldsOf_rsv_toNat, fieldsOf_d_toNat, and_assoc]

/-- The OP of an event comes from its row of the opcode map. -/
theorem opOf_of_eventOf {op : BitVec 3} {d : Bit} {i : Instr} (h : eventOf op d = some i) : opOf i = op := by
  simp only [eventOf] at h
  split_ifs at h <;> cases h <;> simp_all [opOf]

/-- Only OP 001 carries a level (30_encoding.md R82). -/
theorem levelOf_of_eventOf {op : BitVec 3} {d : Bit} {i : Instr} (h : eventOf op d = some i) :
    levelOf i = if op = 0b001#3 then d else 0#1 := by
  simp only [eventOf] at h
  split_ifs at h <;> cases h <;> simp_all [levelOf]

/-- A word that decodes to an event is the word of that event, and no other (30_encoding.md R85). -/
theorem decode_eq_ok_iff {w : EventWord} {i : Instr} : decode w = .ok i ↔ w = encode i := by
  refine ⟨fun h => ?_, fun h => h ▸ decode_encode i⟩
  obtain ⟨j, hj, hwf, he⟩ | ⟨c, hc, -, -⟩ := decode_cases w
  · obtain rfl : j = i := Except.ok.inj (hj.symm.trans h)
    simp only [EventFields.wellFormed, Bool.and_eq_true, Bool.or_eq_true, beq_iff_eq] at hwf
    obtain ⟨⟨-, hrsv⟩, hd⟩ := hwf
    have hlevel : levelOf j = (fieldsOf w).d := by
      rw [levelOf_of_eventOf he]
      split_ifs with hop
      · rfl
      · exact (hd.resolve_left hop).symm
    rw [encode, opOf_of_eventOf he, hlevel, ← hrsv, fieldsOf_append]
  · cases hc.symm.trans h

/-- A word is refused exactly where its fields fail a check (30_encoding.md R83). -/
theorem decode_eq_error_iff (w : EventWord) : (∃ c, decode w = .error c) ↔ (fieldsOf w).wellFormed = false := by
  obtain ⟨i, hi, hwf, -⟩ | ⟨c, hc, hwf, -⟩ := decode_cases w
  · simp [hi, hwf]
  · simp [hc, hwf]

/-- The word of CLK_FALL by its match and mask (30_encoding.md R81), checked at all 256 words and both levels. -/
theorem eq_encode_clkFall_iff (w : EventWord) (d : Bit) :
    w = encode (.clkFall d) ↔ w &&& 0xFE#8 = 0x20#8 ∧ d.toNat = w.toNat % 2 := by
  revert w d
  decide

/-- The words of the events are the seven of 30_encoding.md R81. -/
theorem exists_eq_encode_iff (w : EventWord) :
    (∃ i, w = encode i) ↔ w ∈ [0x20#8, 0x21#8, 0x40#8, 0x60#8, 0x80#8, 0xA0#8, 0xC0#8] := by
  constructor
  · rintro ⟨i, rfl⟩
    cases i with
    | clkFall d => obtain rfl | rfl := BitVec.eq_zero_or_eq_one d <;> decide
    | clkRise | tick | poll | trig | reset => decide
  · simp only [List.mem_cons, List.not_mem_nil, or_false]
    rintro (rfl | rfl | rfl | rfl | rfl | rfl | rfl)
    exacts [⟨.clkFall 0#1, rfl⟩, ⟨.clkFall 1#1, rfl⟩, ⟨.clkRise, rfl⟩, ⟨.tick, rfl⟩, ⟨.poll, rfl⟩, ⟨.trig, rfl⟩,
      ⟨.reset, rfl⟩]

/-! ## The written form of an event (30_encoding.md R86) -/

/-- A line is its own body: it has no ";" and no blank at an end. -/
theorem lineBody_traceLine (i : Instr) : lineBody (traceLine i) = traceLine i := by
  cases i with
  | clkFall d => obtain rfl | rfl := BitVec.eq_zero_or_eq_one d <;> rfl
  | clkRise | tick | poll | trig | reset => rfl

/-- A comment and the blank before it are no part of the body. -/
theorem lineBody_traceLine_comment (i : Instr) (comment : Text) :
    lineBody (traceLine i ++ [' ', ';'] ++ comment) = traceLine i := by
  cases i with
  | clkFall d => obtain rfl | rfl := BitVec.eq_zero_or_eq_one d <;> rfl
  | clkRise | tick | poll | trig | reset => rfl

/-- No two events have one line. -/
theorem traceEvent?_of_lineBody {line : Text} {i : Instr} (h : lineBody line = traceLine i) :
    traceEvent? line = some i := by
  rw [traceEvent?, h]
  cases i with
  | clkFall d => obtain rfl | rfl := BitVec.eq_zero_or_eq_one d <;> rfl
  | clkRise | tick | poll | trig | reset => rfl

end Sys2Proof.Machine
end

section
/-! PROOFS, the layer under the encoding's statements: frames. The bits of a built frame, the number a run of edges
spells, and what a frame begun by a late edge leaves in the registers. -/

namespace Sys2Proof.Machine

open Sys2Proof.Safety

/-! ## The bits of a built frame (30_encoding.md R76) -/

/-- The magnitude reversed into bits 23 to 4 (30_encoding.md R74, R76). -/
theorem rev24_magnitude_getLsbD (m : Magnitude) (i : Nat) :
    ((rev24 (m.setWidth 32)).setWidth 32).getLsbD i = (decide (4 ≤ i ∧ i < 24) && m.getLsbD (23 - i)) := by
  by_cases hi : i < 24
  · have h32 : i < 32 := by omega
    have h32' : 23 - i < 32 := by omega
    simp only [BitVec.getLsbD_setWidth, rev24_getLsbD _ i hi, hi, h32, h32', decide_true, Bool.true_and, and_true]
    by_cases h4 : 4 ≤ i
    · simp [h4]
    · simp [h4, BitVec.getLsbD_of_ge m (23 - i) (by omega)]
  · simp [hi, BitVec.getLsbD_of_ge _ i (Nat.not_lt.mp hi)]

/-- FRAME bit by bit: the magnitude reversed at bits 23 to 4, the sign at bit 3, the unit at bit 0, 0 elsewhere. -/
theorem framePacket_getLsbD (x : Measurement) (i : Nat) :
    (framePacket x).getLsbD i =
      ((decide (4 ≤ i ∧ i < 24) && x.magnitude.getLsbD (23 - i)) || (decide (i = 3) && x.sign) ||
        (decide (i = 0) && x.unit.bit)) := by
  have hsign : ((BitVec.ofBool x.sign).setWidth 32 <<< Config.signBit).getLsbD i = (decide (i = 3) && x.sign) := by
    simp only [BitVec.getLsbD_shiftLeft, BitVec.getLsbD_setWidth, BitVec.getLsbD_ofBool]
    grind
  have hunit : ((BitVec.ofBool x.unit.bit).setWidth 32).getLsbD i = (decide (i = 0) && x.unit.bit) := by
    simp only [BitVec.getLsbD_setWidth, BitVec.getLsbD_ofBool]
    grind
  rw [framePacket, BitVec.getLsbD_or, BitVec.getLsbD_or, rev24_magnitude_getLsbD, hsign, hunit]

theorem framePacket_toNat_lt (x : Measurement) : (framePacket x).toNat < 2 ^ 24 := by
  apply Nat.lt_pow_two_of_testBit
  intro i hi
  have h24 : ¬ i < 24 := by omega
  have h3 : i ≠ 3 := by omega
  have h0 : i ≠ 0 := by omega
  rw [BitVec.testBit_toNat, framePacket_getLsbD]
  simp [h24, h3, h0]

/-- The mask of the bits the decoder reads (30_encoding.md R77). -/
theorem readMask_getLsbD (i : Nat) (h : i < 32) :
    (0x00FFFFF9#32).getLsbD i = decide (i < 24 ∧ i ≠ 1 ∧ i ≠ 2) := by
  have : ∀ j : Fin 32, (0x00FFFFF9#32).getLsbD j.val = decide (j.val < 24 ∧ j.val ≠ 1 ∧ j.val ≠ 2) := by decide
  exact this ⟨i, h⟩

/-- A built frame decodes to its measurement (95_test_vectors.md L1.1). -/
@[simp] theorem decodePacket_framePacket (x : Measurement) : decodePacket (framePacket x) = x := by
  have hunit : (framePacket x).getLsbD 0 = x.unit.bit := by rw [framePacket_getLsbD]; simp
  have hsign : (framePacket x).getLsbD 3 = x.sign := by rw [framePacket_getLsbD]; simp
  have hmag : magnitudeOf (framePacket x) = x.magnitude := by
    refine BitVec.eq_of_getLsbD_eq fun i hi => ?_
    have hrange : 4 ≤ 23 - i ∧ 23 - i < 24 := by omega
    have h3 : 23 - i ≠ 3 := by omega
    have h0 : 23 - i ≠ 0 := by omega
    have hback : 23 - (23 - i) = i := by omega
    rw [magnitudeOf_getLsbD _ i hi, framePacket_getLsbD]
    simp [hrange, h3, h0, hback]
  simp only [decodePacket, hunit, hsign, hmag, LengthUnit.ofBit_bit]

/-- The frame of what a packet decodes to is the packet without the bits the decoder ignores (30_encoding.md R77). -/
theorem framePacket_decodePacket (p : Packet) : framePacket (decodePacket p) = p &&& 0x00FFFFF9#32 := by
  refine BitVec.eq_of_getLsbD_eq fun i hi => ?_
  rw [framePacket_getLsbD, BitVec.getLsbD_and, readMask_getLsbD i hi]
  simp only [decodePacket, LengthUnit.bit_ofBit, Config.unitBit, Config.signBit]
  obtain rfl | rfl | rfl | rfl | ⟨h4, h24⟩ | h24 :
      i = 0 ∨ i = 1 ∨ i = 2 ∨ i = 3 ∨ (4 ≤ i ∧ i < 24) ∨ 24 ≤ i := by omega
  · simp
  · simp
  · simp
  · simp
  · have hback : 23 - (23 - i) = i := by omega
    rw [magnitudeOf_getLsbD p (23 - i) (by omega), hback]
    grind
  · grind

theorem LengthUnit.ofBit_eq_inch_iff (b : Bool) : LengthUnit.ofBit b = .inch ↔ b = true := by
  cases b <;> decide

/-! ## The number that a run of edges spells (20_memory.md R51) -/

theorem received_append (es fs : List Instr) (n : Nat) : received (es ++ fs) n = received fs (received es n) := by
  induction es generalizing n with
  | nil => rfl
  | cons i es ih => cases i <;> exact ih _

/-- The edges of the given levels, the first level first. -/
def levelEvents {n : Nat} (level : Fin n → Bit) : List Instr :=
  (List.finRange n).map fun j => .clkFall (level j)

/-- One more edge doubles the number and adds its bit. -/
theorem received_levelEvents_succ {n : Nat} (level : Fin (n + 1) → Bit) :
    received (levelEvents level) 0 =
      2 * received (levelEvents fun j => level j.castSucc) 0 + (1 - (level (Fin.last n)).toNat) := by
  rw [levelEvents, List.finRange_succ_last, List.map_append, received_append, List.map_map]
  rfl

theorem received_levelEvents_lt {n : Nat} (level : Fin n → Bit) : received (levelEvents level) 0 < 2 ^ n := by
  induction n with
  | zero => exact Nat.one_pos
  | succ n ih =>
    have := ih fun j => level j.castSucc
    rw [received_levelEvents_succ]
    omega

/-- Bit j received, the inverse of level j, stands at bit n - 1 - j (30_encoding.md R75). -/
theorem received_levelEvents_testBit {n : Nat} (level : Fin n → Bit) (j : Fin n) :
    (received (levelEvents level) 0).testBit (n - 1 - j.val) = (level j == 0#1) := by
  induction n with
  | zero => exact j.elim0
  | succ n ih =>
    rw [received_levelEvents_succ]
    cases j using Fin.lastCases with
    | last =>
      obtain h | h := BitVec.eq_zero_or_eq_one (level (Fin.last n)) <;> simp [h]
    | cast j =>
      have hbit := (level (Fin.last n)).isLt
      have hpos : n + 1 - 1 - j.castSucc.val = n - 1 - j.val + 1 := by
        have := j.isLt
        rw [Fin.val_castSucc]
        omega
      have hhalf : (2 * received (levelEvents fun j => level j.castSucc) 0 + (1 - (level (Fin.last n)).toNat)) / 2 =
          received (levelEvents fun j => level j.castSucc) 0 := by omega
      rw [hpos, Nat.testBit_succ, hhalf]
      exact ih (fun j => level j.castSucc) j

/-- BITS n, v spells the n low bits of v (30_encoding.md R87). -/
theorem received_bitsEvents (n : Nat) (v : Packet) (m : Nat) :
    received (bitsEvents n v) m = 2 ^ n * m + v.toNat % 2 ^ n := by
  induction n generalizing m with
  | zero => simp [bitsEvents, received, Nat.mod_one]
  | succ n ih =>
    have hbit : 1 - (levelFor (v.extractLsb' n 1)).toNat = v.toNat / 2 ^ n % 2 := by
      rw [← dataBit_toNat, dataBit_levelFor, BitVec.extractLsb'_toNat, Nat.shiftRight_eq_div_pow, pow_one]
    have hmod : v.toNat % 2 ^ (n + 1) = v.toNat % 2 ^ n + 2 ^ n * (v.toNat / 2 ^ n % 2) := Nat.mod_mul
    simp only [bitsEvents, bitEvents, List.cons_append, List.nil_append, received, ih, hbit, hmod]
    ring

/-! ## Edges with no time between them (40_capture.md R101) -/

/-- The sequence moves the clock line alone. -/
def ClockOnly (es : List Instr) : Prop :=
  ∀ i ∈ es, isEdge i = true ∨ i = .clkRise

theorem clockOnly_cons {i : Instr} {es : List Instr} :
    ClockOnly (i :: es) ↔ (isEdge i = true ∨ i = .clkRise) ∧ ClockOnly es :=
  List.forall_mem_cons

theorem clockOnly_levelEvents {n : Nat} (level : Fin n → Bit) : ClockOnly (levelEvents level) := by
  intro i hi
  obtain ⟨j, -, rfl⟩ := List.mem_map.mp hi
  exact .inl rfl

theorem clockOnly_bitsEvents (n : Nat) (v : Packet) : ClockOnly (bitsEvents n v) := by
  induction n with
  | zero => exact List.forall_mem_nil _
  | succ n ih => exact clockOnly_cons.mpr ⟨.inl rfl, clockOnly_cons.mpr ⟨.inr rfl, ih⟩⟩

theorem shiftIn_ofNat (n : Nat) (d : Bit) :
    shiftIn (BitVec.ofNat 32 n) (dataBit d) = BitVec.ofNat 32 (2 * n + (1 - d.toNat)) := by
  apply BitVec.eq_of_toNat_eq
  rw [shiftIn_toNat, dataBit_toNat, BitVec.toNat_ofNat, BitVec.toNat_ofNat]
  omega

/-- No time has passed since an edge at NOW. -/
theorem newFrame_self (t gap : Time) : newFrame t t gap = false := by
  simp [newFrame, elapsed]

/-- An edge at the time of the edge before shifts its bit in. -/
theorem fallingEdge_of_same_time (g : Time) (d : Bit) {b : Block} (hb : b.lastT = b.now) (n : Nat) :
    Block.fallingEdge g d { b with raw := BitVec.ofNat 32 n } =
      { b with raw := BitVec.ofNat 32 (2 * n + (1 - d.toNat)) } := by
  simp only [Block.fallingEdge, hb, newFrame_self, Bool.false_eq_true, if_false, Block.shiftBit, Block.stampEdge,
    shiftIn_ofNat]

/-- Edges at the time of the edge before change RAW alone, to the number they spell. -/
theorem effects_of_same_time (p : Config.Params) {b : Block} (hb : b.lastT = b.now)
    {es : List Instr} (hes : ClockOnly es) (n : Nat) :
    effects p es { b with raw := BitVec.ofNat 32 n } = { b with raw := BitVec.ofNat 32 (received es n) } := by
  induction es generalizing n with
  | nil => rfl
  | cons i es ih =>
    obtain ⟨hi, hrest⟩ := clockOnly_cons.mp hes
    cases i with
    | clkFall d =>
      rw [effects_cons, effect, fallingEdge_of_same_time p.gapMs d hb]
      exact ih hrest _
    | clkRise => exact ih hrest n
    | tick | poll | trig | reset => simp [isEdge] at hi

/-- A frame begun by a late edge: READY holds the old RAW, and RAW the number the frame's edges spell. -/
theorem effects_of_late_edge {s : State} (hlate : EdgeIsLate s) (d : Bit) {es : List Instr} (hes : ClockOnly es) :
    effects s.params (.clkFall d :: es) s.toBlock =
      { s.toBlock with
        ready := s.raw, raw := BitVec.ofNat 32 (received (.clkFall d :: es) 0), rdy := true, lastT := s.now } := by
  have hraw : (dataBit d).setWidth 32 = BitVec.ofNat 32 (2 * 0 + (1 - d.toNat)) := by
    rw [← dataBit_toNat, Nat.mul_zero, Nat.zero_add, BitVec.ofNat_toNat]
  have hpublish : (s.publish (dataBit d)).stampEdge =
      { s.toBlock with
        ready := s.raw, raw := BitVec.ofNat 32 (2 * 0 + (1 - d.toNat)), rdy := true, lastT := s.now } := by
    rw [← hraw]; rfl
  rw [effects_cons, effect, fallingEdge_of_late hlate, hpublish]
  exact effects_of_same_time s.params
    (b := { s.toBlock with ready := s.raw, rdy := true, lastT := s.now }) rfl hes (2 * 0 + (1 - d.toNat))

/-! ## A frame and what follows it (30_encoding.md R87) -/

/-- The low 24 bits of a packet, as a number and as a mask. -/
theorem ofNat_mod_frame (p : Packet) : BitVec.ofNat 32 (p.toNat % 2 ^ 24) = p &&& 0x00FFFFFF#32 := by
  apply BitVec.eq_of_toNat_eq
  have hmask : p.toNat &&& (0x00FFFFFF#32).toNat = p.toNat % 2 ^ 24 := Nat.and_two_pow_sub_one_eq_mod p.toNat 24
  rw [BitVec.toNat_and, hmask, BitVec.toNat_ofNat]
  omega

/-- A built frame has no bit above bit 23 to lose. -/
theorem framePacket_and_frameMask (x : Measurement) : framePacket x &&& 0x00FFFFFF#32 = framePacket x := by
  rw [← ofNat_mod_frame, Nat.mod_eq_of_lt (framePacket_toNat_lt x), BitVec.ofNat_toNat, BitVec.setWidth_eq]

/-- FRAME p begun by a late edge: RAW holds the 24 bits of p, READY what RAW held. -/
theorem effects_frameEvents {s : State} (hlate : EdgeIsLate s) (p : Packet) :
    effects s.params (frameEvents p) s.toBlock =
      { s.toBlock with ready := s.raw, raw := p &&& 0x00FFFFFF#32, rdy := true, lastT := s.now } := by
  have hclock : ClockOnly (.clkRise :: bitsEvents 23 p) := clockOnly_cons.mpr ⟨.inr rfl, clockOnly_bitsEvents 23 p⟩
  have hspells : received (frameEvents p) 0 = p.toNat % 2 ^ 24 := by
    rw [frameEvents, received_bitsEvents, Nat.mul_zero, Nat.zero_add]
  rw [← ofNat_mod_frame, ← hspells]
  exact effects_of_late_edge hlate (levelFor (p.extractLsb' 23 1)) hclock

/-- Edges of given levels, the first one late: RAW holds the number they spell. -/
theorem effects_levelEvents {s : State} (hlate : EdgeIsLate s) {n : Nat} (level : Fin (n + 1) → Bit) :
    effects s.params (levelEvents level) s.toBlock =
      { s.toBlock with
        ready := s.raw, raw := BitVec.ofNat 32 (received (levelEvents level) 0), rdy := true, lastT := s.now } := by
  have hfirst : levelEvents level = .clkFall (level 0) :: levelEvents fun j => level j.succ := by
    rw [levelEvents, List.finRange_succ, List.map_cons, List.map_map]
    rfl
  rw [hfirst]
  exact effects_of_late_edge hlate (level 0) (clockOnly_levelEvents _)

/-- MEAS m, s, u and GAP, begun by a late edge: the frame is in RAW, and G + 1 ms have passed since its edges. -/
theorem effects_measEvents_gapEvents {s : State} (hlate : EdgeIsLate s) (x : Measurement) :
    effects s.params (measEvents x ++ gapEvents s.params.gapMs) s.toBlock =
      { s.toBlock with
        ready := s.raw, raw := framePacket x, rdy := true, lastT := s.now
        now := s.now + BitVec.ofNat 32 (s.params.gapMs.toNat + 1) } := by
  rw [effects_append, measEvents, effects_frameEvents hlate, framePacket_and_frameMask, gapEvents, effects_waitEvents]

/-- Where n ms have passed since the edge before, an edge sees n modulo 2^W (70_reset_and_hazards.md R244). -/
theorem edgeGap_of_wait {b : Block} {n : Nat} (h : b.now = b.lastT + BitVec.ofNat 32 n) : edgeGap b = n % 2 ^ 32 := by
  have := b.lastT.isLt
  rw [edgeGap, h, BitVec.toNat_add, BitVec.toNat_ofNat]
  omega

/-- A POLL right after a publishing edge consumes the published packet, unless it is the one last consumed. -/
theorem decodeLoop_of_publish {b : Block} (hnew : b.raw ≠ b.lastPkt) (x : Bit) :
    (b.publish x).stampEdge.decodeLoop =
      ((b.publish x).stampEdge.acknowledge.consume b.raw).emit (.bcast (textOf (decodePacket b.raw))) :=
  decodeLoop_of_due ⟨rfl, hnew⟩

end Sys2Proof.Machine
end

section
/-! PROOFS. The obligations of 30_encoding.md, assembled from the lemmas above. -/

namespace Sys2Proof.Proofs

open Sys2Proof Sys2Proof.Machine Sys2Proof.Safety

/-- Settles O3: the decoder reads back the word of an event, and no other word has that event. -/
theorem decodeInvertsEncode : Obligations.DecodeInvertsEncode :=
  ⟨decode_encode, fun _ _ h => (decode_eq_ok_iff.mp h).symm⟩

/-- Settles O1: each of the seven is the word of its event. -/
theorem specWordsDecode : Obligations.SpecWordsDecode :=
  ⟨decode_encode (.clkFall 0#1), decode_encode (.clkFall 1#1), decode_encode .clkRise, decode_encode .tick,
    decode_encode .poll, decode_encode .trig, decode_encode .reset⟩

/-- Settles O2: a row matches the words of its event, and the two OP values without a row fail the checks. -/
theorem opcodeMapIsExact : Obligations.OpcodeMapIsExact := by
  intro w
  have hmask : w &&& 0xFF#8 = w := BitVec.and_allOnes
  refine ⟨fun d => decode_eq_ok_iff.trans (eq_encode_clkFall_iff w d), ?_, ?_, ?_, ?_, ?_, fun hop => ?_⟩
  any_goals rw [hmask]; exact decode_eq_ok_iff
  have := w.isLt
  rw [decode_eq_error_iff, ← Bool.not_eq_true, wellFormed_fieldsOf_iff]
  omega

/-- Settles O4: a word is refused where its fields fail a check, is defined where it is the word of an event, and a
refusal marks REFUSED alone. -/
theorem refusedWordsAreExact : Obligations.RefusedWordsAreExact := by
  refine fun w => ⟨?_, ?_, fun c s ws hd hp => ⟨_, step_of_refused hp hd, rfl⟩⟩
  · rw [decode_eq_error_iff, ← Bool.not_eq_true, wellFormed_fieldsOf_iff]
    omega
  · simp only [decode_eq_ok_iff]
    exact exists_eq_encode_iff w

/-- Settles O54: the body of the line is the event's own line, which no other event has. -/
theorem traceLineReadsBack : Obligations.TraceLineReadsBack :=
  fun i comment => ⟨traceEvent?_of_lineBody (lineBody_traceLine i),
    traceEvent?_of_lineBody (lineBody_traceLine_comment i comment)⟩

/-- Settles O27, bit by bit in both directions. -/
theorem frameRoundTrip : Obligations.FrameRoundTrip :=
  ⟨fun x => ⟨framePacket_toNat_lt x, decodePacket_framePacket x⟩, framePacket_decodePacket⟩

/-- Settles O20: the frame's edges come with no time between them, and spell the low 24 bits of p. -/
theorem frameEventsCaptureThePacket : Obligations.FrameEventsCaptureThePacket :=
  fun s p hlate => ⟨_, runEvents_eq_effects (frameEvents p) s, effects_frameEvents hlate p⟩

/-- Settles O19: RAW is the number the 24 levels spell, and the decoder reads that number's bits. -/
theorem frameBitOrder : Obligations.FrameBitOrder := by
  intro s level hlate
  obtain ⟨t, ht, hraw⟩ : ∃ t, runEvents (levelEvents level) s = .next t ∧
      t.raw = BitVec.ofNat 32 (received (levelEvents level) 0) :=
    ⟨_, runEvents_eq_effects (levelEvents level) s, by rw [State.onBlock_toBlock, effects_levelEvents hlate]⟩
  have hbit (j : Fin 24) : t.raw.getLsbD (23 - j.val) = (level j == 0#1) := by
    have hj : 23 - j.val < 32 := by omega
    rw [hraw, BitVec.getLsbD_ofNat, decide_eq_true hj, Bool.true_and]
    exact received_levelEvents_testBit level j
  refine ⟨t, ht, ?_, hbit, fun j hj => (magnitudeOf_getLsbD t.raw j.val hj).trans (hbit j), hbit 20, ?_⟩
  · rw [hraw, BitVec.toNat_ofNat]
    exact (Nat.mod_le _ _).trans_lt (received_levelEvents_lt level)
  · exact (LengthUnit.ofBit_eq_inch_iff _).trans ((hbit 23).symm ▸ beq_iff_eq)

/-- Settles O34: the frame leaves the measurement's packet in RAW, the edge after the gap publishes it, and the POLL
consumes it. -/
theorem measurementEndToEnd : Obligations.MeasurementEndToEnd := by
  intro x s d hlate hgap hnew
  have hsent := effects_measEvents_gapEvents hlate x
  have hlate' : EdgeIsLate (s.onBlock (effects s.params (measEvents x ++ gapEvents s.params.gapMs))) := by
    have hwaited : edgeGap (effects s.params (measEvents x ++ gapEvents s.params.gapMs) s.toBlock) =
        (s.params.gapMs.toNat + 1) % 2 ^ 32 := edgeGap_of_wait (by rw [hsent])
    rw [EdgeIsLate, State.onBlock_params, State.onBlock_toBlock, hwaited, Nat.mod_eq_of_lt hgap]
    exact Nat.lt_succ_self _
  refine ⟨_, runEvents_eq_effects _ s, ?_⟩
  have hedge := fallingEdge_of_late hlate' d
  rw [State.onBlock_toBlock, State.onBlock_params, hsent] at hedge
  rw [State.onBlock_toBlock, effects_append, hsent, effects_cons, effects_cons, effects_nil, effect, hedge, effect,
    decodeLoop_of_publish hnew]
  simp

end Sys2Proof.Proofs
end

section
/-! PROOFS, the layer under the capture statements. What an edge leaves, by whether it is late, written out as numbers;
the number a sequence spells, modulo 2^32 and its size; what a sequence without a late edge leaves; and NOW. -/

namespace Sys2Proof.Machine

open Sys2Proof.Safety

/-! ## One edge (40_capture.md R100, R101) -/

theorem newFrame_eq_true_iff (last t gap : Time) :
    newFrame last t gap = true ↔ gap.toNat < (t.toNat + 2 ^ 32 - last.toNat) % 2 ^ 32 := by
  rw [newFrame, decide_eq_true_iff, BitVec.lt_def, elapsed_toNat]

/-- The new bit alone, in the 32 bits of RAW (40_capture.md R101 step 3). -/
theorem setWidth_dataBit (d : Bit) : (dataBit d).setWidth 32 = BitVec.ofNat 32 (1 - d.toNat) := by
  rw [← dataBit_toNat, BitVec.ofNat_toNat]

theorem setWidth_dataBit_toNat (d : Bit) : ((dataBit d).setWidth 32).toNat = 1 - d.toNat := by
  rw [setWidth_dataBit, BitVec.toNat_ofNat]
  omega

/-- The new bit shifted in (40_capture.md R101 step 4). -/
theorem shiftIn_dataBit (raw : Packet) (d : Bit) :
    shiftIn raw (dataBit d) = BitVec.ofNat 32 (2 * raw.toNat + (1 - d.toNat)) := by
  rw [← shiftIn_ofNat, BitVec.ofNat_toNat, BitVec.setWidth_eq]

theorem exec_clkFall_of_late {s : State} (h : EdgeIsLate s) (d : Bit) :
    exec (.clkFall d) s = .next (s.onBlock fun b => (b.publish (dataBit d)).stampEdge) := by
  simp only [exec_eq_effect, effect, State.onBlock, fallingEdge_of_late h]

theorem exec_clkFall_of_not_late {s : State} (h : ¬ EdgeIsLate s) (d : Bit) :
    exec (.clkFall d) s = .next (s.onBlock fun b => (b.shiftBit (dataBit d)).stampEdge) := by
  simp only [exec_eq_effect, effect, State.onBlock, fallingEdge_of_not_late h]

/-! ## The number a sequence spells (20_memory.md R51) -/

/-- The bits that leave RAW at the top have no effect on the bits that stay. -/
theorem received_modEq {m a b : Nat} (es : List Instr) (h : a ≡ b [MOD m]) : received es a ≡ received es b [MOD m] := by
  induction es generalizing a b with
  | nil => exact h
  | cons i es ih =>
    cases i with
    | clkFall d => exact ih ((h.mul_left 2).add_right (1 - d.toNat))
    | clkRise | tick | poll | trig | reset => exact ih h

/-- A sequence's edges append one bit each. -/
theorem received_lt (es : List Instr) (n : Nat) : received es n < 2 ^ edges es * (n + 1) := by
  induction es generalizing n with
  | nil => simp [received, edges]
  | cons i es ih =>
    cases i with
    | clkFall d =>
      have hedges : edges (.clkFall d :: es) = edges es + 1 := List.countP_cons_of_pos rfl
      have hbit : 2 * n + (1 - d.toNat) + 1 ≤ 2 * (n + 1) := by omega
      calc received es (2 * n + (1 - d.toNat))
          < 2 ^ edges es * (2 * n + (1 - d.toNat) + 1) := ih _
        _ ≤ 2 ^ edges es * (2 * (n + 1)) := Nat.mul_le_mul_left _ hbit
        _ = 2 ^ edges (.clkFall d :: es) * (n + 1) := by rw [hedges, pow_succ, Nat.mul_assoc]
    | clkRise | tick | poll | trig | reset => exact ih n

/-! ## A sequence without a late edge (40_capture.md R107) -/

theorem noLateEdge_cons {i : Instr} {es : List Instr} {s : State} :
    noLateEdge (i :: es) s = true ↔
      (isEdge i = true → ¬ EdgeIsLate s) ∧ noLateEdge es (s.onBlock (effect s.params i)) = true := by
  simp only [noLateEdge, exec_eq_effect, Bool.and_eq_true]
  cases isEdge i <;> simp

/-- What one event does to READY, RDY and RAW where it is neither RESET nor a late edge. -/
theorem effect_of_not_late {i : Instr} {s : State} (hr : i ≠ .reset) (hi : isEdge i = true → ¬ EdgeIsLate s) :
    (effect s.params i s.toBlock).ready = s.ready ∧
      (s.rdy = false → (effect s.params i s.toBlock).rdy = false) ∧
      (effect s.params i s.toBlock).raw.toNat = received [i] s.raw.toNat % 2 ^ 32 := by
  have hraw : s.raw.toNat = s.raw.toNat % 2 ^ 32 := (Nat.mod_eq_of_lt s.raw.isLt).symm
  cases i with
  | clkFall d =>
    rw [effect, fallingEdge_of_not_late (hi rfl)]
    exact ⟨rfl, id, by rw [Block.stampEdge_raw, Block.shiftBit_raw, shiftIn_toNat, dataBit_toNat]; rfl⟩
  | poll =>
    refine ⟨decodeLoop_ready _, fun h => ?_, (congrArg BitVec.toNat (decodeLoop_raw _)).trans hraw⟩
    simp only [effect, decodeLoop_rdy, h, ite_self]
  | trig => exact ⟨trigger_ready _ _, (trigger_rdy _ _).trans, (congrArg BitVec.toNat (trigger_raw _ _)).trans hraw⟩
  | reset => exact absurd rfl hr
  | clkRise | tick => exact ⟨rfl, id, hraw⟩

/-- What a sequence does to READY, RDY and RAW where it holds neither RESET nor a late edge. -/
theorem effects_of_noLateEdge {es : List Instr} {s : State} (hr : .reset ∉ es) (hes : noLateEdge es s = true) :
    (effects s.params es s.toBlock).ready = s.ready ∧
      (s.rdy = false → (effects s.params es s.toBlock).rdy = false) ∧
      (effects s.params es s.toBlock).raw.toNat = received es s.raw.toNat % 2 ^ 32 := by
  induction es generalizing s with
  | nil => exact ⟨rfl, id, (Nat.mod_eq_of_lt s.raw.isLt).symm⟩
  | cons i es ih =>
    obtain ⟨hri, hres⟩ := not_or.mp (mt List.mem_cons.mpr hr)
    obtain ⟨hi, hrest⟩ := noLateEdge_cons.mp hes
    obtain ⟨hready, hrdy, hraw⟩ := effect_of_not_late (Ne.symm hri) hi
    obtain ⟨hready', hrdy', hraw'⟩ := ih hres hrest
    refine ⟨hready'.trans hready, hrdy' ∘ hrdy, ?_⟩
    calc (effects s.params (i :: es) s.toBlock).raw.toNat
        = received es (effect s.params i s.toBlock).raw.toNat % 2 ^ 32 := hraw'
      _ = received es (received [i] s.raw.toNat % 2 ^ 32) % 2 ^ 32 := by rw [hraw]
      _ = received es (received [i] s.raw.toNat) % 2 ^ 32 := received_modEq es (Nat.mod_modEq _ _)
      _ = received (i :: es) s.raw.toNat % 2 ^ 32 := by rw [← received_append]; rfl

/-! ## NOW (40_capture.md R104, R105) -/

theorem advanceTime_now_toNat (b : Block) : b.advanceTime.now.toNat = (b.now.toNat + 1) % 2 ^ 32 :=
  BitVec.toNat_add b.now 1#32

/-- NOW advances by the number of TICKs, whatever else comes between. -/
theorem effects_now_toNat (p : Config.Params) {es : List Instr} (hr : .reset ∉ es) (b : Block) :
    (effects p es b).now.toNat = (b.now.toNat + ticks es) % 2 ^ 32 := by
  induction es generalizing b with
  | nil => exact (Nat.mod_eq_of_lt b.now.isLt).symm
  | cons i es ih =>
    obtain ⟨hri, hres⟩ := not_or.mp (mt List.mem_cons.mpr hr)
    rw [effects_cons, ih hres]
    by_cases ht : i = .tick
    · have hticks : ticks (i :: es) = ticks es + 1 := by rw [ht]; exact List.count_cons_self
      rw [ht, effect, advanceTime_now_toNat, ← ht, hticks]
      omega
    · have hticks : ticks (i :: es) = ticks es := List.count_cons_of_ne ht
      rw [effect_now p b ht (Ne.symm hri), hticks]

end Sys2Proof.Machine
end

section
/-! PROOFS. The obligations of 40_capture.md, assembled from the lemmas above. -/

namespace Sys2Proof.Proofs

open Sys2Proof Sys2Proof.Machine Sys2Proof.Safety

/-- Settles O17, by induction on the sequence: no event of it publishes, and its edges shift their bits in. -/
theorem noPublishWithoutGap : Obligations.NoPublishWithoutGap :=
  fun es s hr hes => ⟨_, runEvents_eq_effects es s, effects_of_noLateEdge hr hes⟩

/-- Settles O18: the first edge leaves its bit alone in RAW, the sequence shifts its bits in behind it, and the next
late edge publishes RAW whole. -/
theorem publishedPacketIsTheRunOfBits : Obligations.PublishedPacketIsTheRunOfBits := by
  intro s s' t d d' es hlate hfirst hr hes hrun hlate'
  rw [exec_clkFall_of_late hlate] at hfirst
  injection hfirst with hfirst
  have hfirstRaw : s'.raw.toNat = 2 * 0 + (1 - d.toNat) := by
    rw [← hfirst, Nat.mul_zero, Nat.zero_add]
    exact setWidth_dataBit_toNat d
  have hraw : t.raw.toNat = received (.clkFall d :: es) 0 % 2 ^ 32 := by
    obtain rfl := runEvents_next_iff.mp hrun
    obtain ⟨-, -, hraw⟩ := effects_of_noLateEdge hr hes
    exact hraw.trans (by rw [hfirstRaw]; rfl)
  have hfits : received (.clkFall d :: es) 0 < 2 ^ edges (.clkFall d :: es) := by
    simpa using received_lt (.clkFall d :: es) 0
  exact ⟨_, exec_clkFall_of_late hlate' d', rfl, hraw, hraw.trans_lt ((Nat.mod_le _ _).trans_lt hfits),
    setWidth_dataBit_toNat d'⟩

/-- Settles O13: a late edge publishes, and any other shifts its bit in. -/
theorem clkFallResult : Obligations.ClkFallResult := by
  intro d s
  have hword : ∀ d : Bit, encode (.clkFall d) = 0x20#8 ||| d.setWidth 8 := by decide
  refine ⟨hword d, ?_⟩
  by_cases hlate : EdgeIsLate s
  · refine ⟨_, exec_clkFall_of_late hlate d, ?_⟩
    rw [if_pos hlate, ← setWidth_dataBit]
    rfl
  · refine ⟨_, exec_clkFall_of_not_late hlate d, ?_⟩
    rw [if_neg hlate, ← shiftIn_dataBit]
    rfl

/-- Settles O16: every other event keeps NOW, and each TICK of a sequence adds one. -/
theorem timeIsTheTickCount : Obligations.TimeIsTheTickCount := by
  refine ⟨fun i s t h hnow => ?_,
    fun es s hr => ⟨_, runEvents_eq_effects es s, effects_now_toNat s.params hr s.toBlock⟩⟩
  obtain rfl := exec_next_iff.mp h
  by_contra hi
  obtain ⟨ht, hr⟩ := not_or.mp hi
  exact hnow (effect_now s.params s.toBlock ht hr)

/-- Settles O12: the decision compares the elapsed time, which is the difference modulo 2^W. -/
theorem framingDecision : Obligations.FramingDecision :=
  newFrame_eq_true_iff

/-- Settles O14: CLK_RISE has no effect on the registers. -/
theorem clkRiseResult : Obligations.ClkRiseResult :=
  ⟨rfl, fun s => (exec_eq_effect .clkRise s).trans (congrArg Host.Outcome.next (State.onBlock_id s))⟩

/-- Settles O15: TICK writes NOW alone, and adds one to it modulo 2^W. -/
theorem tickResult : Obligations.TickResult := by
  refine ⟨rfl, fun s => ⟨_, exec_eq_effect .tick s, ?_⟩⟩
  rw [← advanceTime_now_toNat, BitVec.ofNat_toNat, BitVec.setWidth_eq]
  rfl

end Sys2Proof.Proofs
end

section
/-! PROOFS, the layer under the decode statements: text. The digits that dec and dec4 write, and what the independent
reader of Safety.lean makes of them. -/

namespace Sys2Proof.Machine

open Sys2Proof.Safety

/-! ## The digits of dec and dec4 (00_scope.md R13) -/

theorem isDigit_of_mem_dec {n : Nat} {c : Char} (h : c ∈ dec n) : c.isDigit = true :=
  Nat.isDigit_of_mem_toDigits (by decide) (by decide) h

theorem isDigit_of_mem_dec4 {n : Nat} {c : Char} (h : c ∈ dec4 n) : c.isDigit = true := by
  have hdigit (k : Nat) : (Nat.digitChar (k % 10)).isDigit = true := by
    rw [Nat.isDigit_digitChar, decide_eq_true_iff]
    omega
  simp only [dec4, List.mem_cons, List.not_mem_nil, or_false] at h
  obtain rfl | rfl | rfl | rfl := h <;> exact hdigit _

theorem dec_ne_nil (n : Nat) : dec n ≠ [] :=
  Nat.toDigits_ne_nil

/-- The last digit stands behind those of the tenth. -/
theorem dec_of_ten_le {n : Nat} (h : 10 ≤ n) : dec n = dec (n / 10) ++ [Nat.digitChar (n % 10)] :=
  Nat.toDigits_of_base_le (by decide) h

/-- No leading zero, unless the number is 0. -/
theorem dec_head?_ne_zero {n : Nat} (hn : 0 < n) : (dec n).head? ≠ some '0' := by
  induction n using Nat.strongRecOn with
  | ind n ih =>
    by_cases h : n < 10
    · rw [dec, Nat.toDigits_of_lt_base h, List.head?_cons, ne_eq, Option.some_inj, Nat.digitChar_eq_zero]
      omega
    · rw [dec_of_ten_le (Nat.not_lt.mp h), List.head?_append_of_ne_nil _ (dec_ne_nil _)]
      exact ih (n / 10) (by omega) (by omega)

/-- The four digits of dec4 are those of 10000 + k behind its leading 1. -/
theorem dec_tenThousand_add {k : Nat} (hk : k < 10000) : dec (10000 + k) = '1' :: dec4 k := by
  have hone : (10000 + k) / 10 / 10 / 10 / 10 = 1 := by omega
  have hthousands : (10000 + k) / 10 / 10 / 10 % 10 = k / 1000 % 10 := by omega
  have hhundreds : (10000 + k) / 10 / 10 % 10 = k / 100 % 10 := by omega
  have htens : (10000 + k) / 10 % 10 = k / 10 % 10 := by omega
  have hunits : (10000 + k) % 10 = k % 10 := by omega
  rw [dec_of_ten_le (by omega), dec_of_ten_le (by omega), dec_of_ten_le (by omega), dec_of_ten_le (by omega), hone,
    hthousands, hhundreds, htens, hunits]
  rfl

/-- A number below 10^k has 1 to k digits. -/
theorem dec_length_bounds {n k : Nat} (hk : 0 < k) (hn : n < 10 ^ k) : 1 ≤ (dec n).length ∧ (dec n).length ≤ k :=
  ⟨Nat.length_toDigits_pos, (Nat.length_toDigits_le_iff (by decide) hk).mpr hn⟩

/-! ## The reader on digits -/

theorem readDigit_of_isDigit {c : Char} (h : c.isDigit = true) : readDigit c = some (c.toNat - '0'.toNat) := by
  have hrange : 48 ≤ c.toNat ∧ c.toNat ≤ 57 := by
    simpa [Char.isDigit, UInt32.le_iff_toNat_le] using h
  exact if_pos hrange

/-- On digits alone the reader computes the number they spell in base ten. -/
theorem readDigits_of_isDigit {t : Text} (h : ∀ c ∈ t, c.isDigit = true) (n : Nat) :
    readDigits t n = some (Nat.ofDigitChars 10 t n) := by
  induction t generalizing n with
  | nil => rfl
  | cons c t ih =>
    obtain ⟨hc, ht⟩ := List.forall_mem_cons.mp h
    rw [readDigits, readDigit_of_isDigit hc, Nat.ofDigitChars_cons]
    exact ih ht _

theorem readDigits_dec (n : Nat) : readDigits (dec n) 0 = some n := by
  rw [readDigits_of_isDigit fun _ => isDigit_of_mem_dec]
  exact congrArg some Nat.ofDigitChars_ten_toDigits

theorem readDigits_dec4 {k : Nat} (hk : k < 10000) : readDigits (dec4 k) 0 = some k := by
  have hdigit (j : Nat) : j % 10 < 10 := Nat.mod_lt j (by decide)
  rw [readDigits_of_isDigit fun _ => isDigit_of_mem_dec4]
  simp only [dec4, Nat.ofDigitChars_cons_digitChar_of_lt_ten (hdigit _), Nat.ofDigitChars_nil, Option.some_inj]
  omega

/-- A row of digits without a leading zero is read as its digits. -/
theorem readNumber_eq_readDigits {t : Text} (hne : t ≠ []) (hzero : t.head? ≠ some '0') :
    readNumber t = readDigits t 0 := by
  match t with
  | [] => exact absurd rfl hne
  | [c] => rfl
  | c :: d :: cs => exact if_neg fun hc => hzero (congrArg some hc)

theorem readNumber_dec (n : Nat) : readNumber (dec n) = some n := by
  obtain rfl | hn := Nat.eq_zero_or_pos n
  · rfl
  · rw [readNumber_eq_readDigits (dec_ne_nil n) (dec_head?_ne_zero hn), readDigits_dec]

/-! ## The reader on a whole text -/

theorem readUnit_suffix (u : LengthUnit) : readUnit (u.suffix ++ ['\n']) = some u := by
  cases u <;> rfl

/-- The reader splits at the point, since the digits before it hold none. -/
theorem readUnsigned_eq_some (negative : Bool) {t rest : Text} {a b c d : Char} {n f : Nat} {u : LengthUnit}
    (ht : ∀ x ∈ t, x.isDigit = true) (hn : readNumber t = some n) (hf : readDigits [a, b, c, d] 0 = some f)
    (hu : readUnit rest = some u) :
    readUnsigned negative (t ++ '.' :: a :: b :: c :: d :: rest) =
      some { negative := negative, tenThousandths := 10000 * n + f, unit := u } := by
  have hpoint : ∀ x ∈ t, (x != '.') = true := fun x hx => bne_iff_ne.mpr <| by
    rintro rfl
    exact absurd (ht _ hx) (by decide)
  simp [readUnsigned, List.dropWhile_append_of_pos hpoint, List.takeWhile_append_of_pos hpoint, hn, hf, hu]

/-- TEXT without its sign spells V and the unit (41_decode.md R138, R141). -/
theorem readUnsigned_number (negative : Bool) (u : LengthUnit) (v : Nat) :
    readUnsigned negative (dec (v / 10000) ++ '.' :: (dec4 (v % 10000) ++ (u.suffix ++ ['\n']))) =
      some { negative := negative, tenThousandths := v, unit := u } := by
  have hread := readUnsigned_eq_some negative (fun _ => isDigit_of_mem_dec) (readNumber_dec (v / 10000))
    (readDigits_dec4 (Nat.mod_lt v (by decide))) (readUnit_suffix u)
  rwa [Nat.div_add_mod] at hread

/-- The sign is the "-" in front, and nothing where there is none (41_decode.md R140). -/
theorem readText_signText (sign : Bool) {t : Text} (ht : t.head? ≠ some '-') :
    readText (signText sign ++ t) = readUnsigned sign t := by
  cases sign with
  | true => rfl
  | false =>
    change readText t = readUnsigned false t
    unfold readText
    split
    · exact absurd rfl ht
    · rfl

theorem scaledValue_eq (u : LengthUnit) (m : Magnitude) :
    scaledValue u m = m.toNat * (if u = .mm then 100 else 5) := by
  cases u <;> rfl

/-- The reader inverts TEXT (41_decode.md R138, R140, R141). -/
theorem readText_textOf (x : Measurement) :
    readText (textOf x) =
      some { negative := x.sign, tenThousandths := scaledValue x.unit x.magnitude, unit := x.unit } := by
  obtain ⟨c, cs, hdec⟩ := List.exists_cons_of_ne_nil (dec_ne_nil (scaledValue x.unit x.magnitude / 10000))
  have hdigit : c.isDigit = true := isDigit_of_mem_dec (hdec ▸ List.mem_cons_self)
  have hminus : c ≠ '-' := fun h => absurd (h ▸ hdigit) (by decide)
  have hread := readUnsigned_number x.sign x.unit (scaledValue x.unit x.magnitude)
  rw [textOf_eq]
  simp only [List.append_assoc, List.cons_append, List.nil_append]
  rw [readText_signText, hread]
  simpa [hdec] using hminus

/-! ## TEXT by its parts (41_decode.md R141, R142) -/

theorem dec_eq_repr (n : Nat) : dec n = (Nat.repr n).toList :=
  Nat.toList_repr.symm

/-- The four digits of dec4, printed as Lean prints 10000 + k. -/
theorem dec4_eq_tail_repr {k : Nat} (hk : k < 10000) : dec4 k = (Nat.repr (10000 + k)).toList.tail := by
  rw [← dec_eq_repr, dec_tenThousand_add hk, List.tail_cons]

theorem textOf_length (x : Measurement) :
    (textOf x).length = (signText x.sign).length + (dec (scaledValue x.unit x.magnitude / 10000)).length +
      x.unit.suffix.length + 6 := by
  rw [textOf_eq]
  simp only [List.length_append, List.length_singleton, dec4_length]
  omega

theorem signText_length_le (sign : Bool) : (signText sign).length ≤ 1 := by
  cases sign <;> decide

/-- Beside the suffix a text has seven characters at least, and one for the sign and k - 1 more digits at most. -/
theorem textOf_length_bounds (x : Measurement) {k : Nat} (hk : 0 < k)
    (hv : scaledValue x.unit x.magnitude / 10000 < 10 ^ k) :
    x.unit.suffix.length + 7 ≤ (textOf x).length ∧ (textOf x).length ≤ x.unit.suffix.length + 7 + k := by
  have hsign := signText_length_le x.sign
  obtain ⟨hlow, hhigh⟩ := dec_length_bounds hk hv
  rw [textOf_length]
  omega

end Sys2Proof.Machine
end

section
/-! PROOFS, the layer under the decode statements: the datapath bit by bit, and POLL. -/

namespace Sys2Proof.Machine

open Sys2Proof.Safety

/-! ## The reversal and DECODE (41_decode.md R135, R137) -/

/-- The magnitude is the reversal of the 20 packet bits from bit 4 on (30_encoding.md R74). -/
theorem magnitudeOf_eq_reverse (p : Packet) : magnitudeOf p = (p.extractLsb' 4 20).reverse := by
  refine BitVec.eq_of_getLsbD_eq fun i hi => ?_
  have hpos : 4 + (20 - 1 - i) = 23 - i := by omega
  have hlt : 20 - 1 - i < 20 := by omega
  rw [magnitudeOf_getLsbD p i hi, BitVec.getLsbD_reverse, BitVec.getMsbD_eq_getLsbD, BitVec.getLsbD_extractLsb', hpos]
  simp [hi, hlt]

/-- DECODE reads bits 0, 3 and 4 to 23 alone. -/
theorem decodePacket_congr {p q : Packet} (h : ∀ i, i < 24 → i ≠ 1 → i ≠ 2 → p.getLsbD i = q.getLsbD i) :
    decodePacket p = decodePacket q := by
  have hmag : magnitudeOf p = magnitudeOf q := by
    refine BitVec.eq_of_getLsbD_eq fun i hi => ?_
    rw [magnitudeOf_getLsbD p i hi, magnitudeOf_getLsbD q i hi]
    exact h (23 - i) (by omega) (by omega) (by omega)
  rw [decodePacket, decodePacket, hmag, Config.unitBit, Config.signBit, h 0 (by decide) (by decide) (by decide),
    h 3 (by decide) (by decide) (by decide)]

theorem rev24_rev24 (x : Packet) : rev24 ((rev24 x).setWidth 32) = x.setWidth 24 := by
  refine BitVec.eq_of_getLsbD_eq fun i hi => ?_
  have hback : 23 - (23 - i) = i := by omega
  have h32 : 23 - i < 32 := by omega
  rw [rev24_getLsbD _ i hi, BitVec.getLsbD_setWidth, rev24_getLsbD x (23 - i) (by omega), hback,
    BitVec.getLsbD_setWidth]
  simp [hi, h32]

theorem rev24_congr {x y : Packet} (h : x.setWidth 24 = y.setWidth 24) : rev24 x = rev24 y :=
  congrArg BitVec.reverse h

/-- The four zeros shifted in at the bottom come out at the top. -/
theorem rev24_shiftLeft_high (x : Packet) : (rev24 (x <<< 4)).extractLsb' 20 4 = 0#4 := by
  refine BitVec.eq_of_getLsbD_eq fun i hi => ?_
  have hlow : 23 - (20 + i) < 4 := by omega
  rw [BitVec.getLsbD_extractLsb', rev24_getLsbD _ (20 + i) (by omega), BitVec.getLsbD_shiftLeft]
  simp [hlow]

theorem rev24_shiftLeft_low (x : Packet) :
    (rev24 (x <<< 4)).extractLsb' 0 20 = (x.extractLsb' 0 20).reverse := by
  refine BitVec.eq_of_getLsbD_eq fun i hi => ?_
  have h32 : 23 - i < 32 := by omega
  have h4 : ¬ 23 - i < 4 := by omega
  have h20 : 20 - 1 - i < 20 := by omega
  have hpos : 23 - i - 4 = 20 - 1 - i := by omega
  rw [BitVec.getLsbD_extractLsb', rev24_getLsbD _ (0 + i) (by omega), BitVec.getLsbD_reverse,
    BitVec.getMsbD_eq_getLsbD, BitVec.getLsbD_extractLsb', BitVec.getLsbD_shiftLeft, Nat.zero_add, Nat.zero_add, hpos]
  simp [hi, h32, h4, h20]

/-! ## POLL (41_decode.md R131 to R134) -/

/-- After a POLL the mailbox holds nothing new. -/
theorem not_pollIsDue_decodeLoop (b : Block) : ¬ PollIsDue b.decodeLoop := by
  by_cases h : PollIsDue b
  · rw [decodeLoop_of_due h]
    exact fun hdue => absurd hdue.1 Bool.false_ne_true
  · rwa [decodeLoop_of_not_due h]

/-- A POLL that does not accept answers the state it found (41_decode.md R132). -/
theorem exec_poll_of_not_due {s : State} (h : ¬ PollIsDue s.toBlock) : exec .poll s = .next s := by
  rw [exec_eq_effect, effect, State.onBlock, decodeLoop_of_not_due h]

@[simp] theorem bcasts_append (out out' : List Record) : bcasts (out ++ out') = bcasts out ++ bcasts out' :=
  List.filterMap_append

/-- Only an accepting POLL emits an automatic update (41_decode.md R144). -/
theorem bcasts_effect (p : Config.Params) {i : Instr} {b : Block} (hp : i = .poll → ¬ PollIsDue b) :
    bcasts (effect p i b).out = bcasts b.out := by
  obtain h | ⟨hi, hdue, -⟩ | ⟨-, -, -, h⟩ | ⟨-, -, -, -, h⟩ := effect_out_cases p i b
  · rw [h]
  · exact absurd hdue (hp hi)
  · rw [h, bcasts_append]
    exact List.append_nil _
  · rw [h, bcasts_append]
    exact List.append_nil _

/-- Only an edge, a POLL and RESET touch what a POLL looks at (10_state.md R34). -/
theorem effect_keeps_mailbox (p : Config.Params) {i : Instr} (b : Block) (he : isEdge i = false) (hp : i ≠ .poll)
    (hr : i ≠ .reset) : (effect p i b).rdy = b.rdy ∧ (effect p i b).ready = b.ready ∧
      (effect p i b).lastPkt = b.lastPkt := by
  cases i with
  | clkFall d => cases he
  | poll => exact absurd rfl hp
  | reset => exact absurd rfl hr
  | clkRise | tick | trig => simp [effect]

/-- Without edges and RESETs the first POLL broadcasts the ready packet, if it is new, and nothing else is broadcast. -/
theorem bcasts_effects (p : Config.Params) {es : List Instr} (he : edges es = 0) (hr : .reset ∉ es) (b : Block) :
    bcasts (effects p es b).out =
      bcasts b.out ++ if PollIsDue b ∧ .poll ∈ es then [textOf (decodePacket b.ready)] else [] := by
  induction es generalizing b with
  | nil => simp
  | cons i es ih =>
    simp only [edges, List.countP_eq_zero, List.forall_mem_cons, Bool.not_eq_true] at he ih
    obtain ⟨hri, hres⟩ := not_or.mp (mt List.mem_cons.mpr hr)
    rw [effects_cons, ih he.2 hres]
    by_cases hp : i = .poll
    · subst hp
      rw [effect, if_neg fun h => not_pollIsDue_decodeLoop b h.1, List.append_nil]
      by_cases hdue : PollIsDue b
      · rw [if_pos ⟨hdue, List.mem_cons_self⟩, decodeLoop_of_due hdue, Block.emit_out, bcasts_append]
        rfl
      · rw [if_neg fun h => hdue h.1, decodeLoop_of_not_due hdue, List.append_nil]
    · obtain ⟨hrdy, hready, hpkt⟩ := effect_keeps_mailbox p b he.1 hp (Ne.symm hri)
      have hmem : .poll ∈ i :: es ↔ .poll ∈ es := List.mem_cons.trans (or_iff_right (Ne.symm hp))
      simp only [bcasts_effect p fun h => absurd h hp, hmem, PollIsDue, hrdy, hready, hpkt]

/-! ## The retained measurement (41_decode.md R145) -/

/-- An accepting POLL retains what it broadcasts. -/
theorem retainedIsLastBroadcast_decodeLoop_of_due {b : Block} (h : PollIsDue b) :
    RetainedIsLastBroadcast b.decodeLoop := by
  intro _
  rw [decodeLoop_of_due h, Block.emit_out, bcasts_append]
  exact List.getLast?_concat

/-- Every event keeps R145: RESET retains nothing, an accepting POLL retains what it broadcasts, and any other event
changes neither. -/
theorem retainedIsLastBroadcast_effect {b : Block} (h : RetainedIsLastBroadcast b) (p : Config.Params) (i : Instr) :
    RetainedIsLastBroadcast (effect p i b) := by
  by_cases hr : i = .reset
  · subst hr
    exact nofun
  by_cases hp : i = .poll ∧ PollIsDue b
  · obtain ⟨rfl, hdue⟩ := hp
    exact retainedIsLastBroadcast_decodeLoop_of_due hdue
  · have hp' : i = .poll → ¬ PollIsDue b := fun hi hdue => hp ⟨hi, hdue⟩
    obtain ⟨-, hvalid, hmeas⟩ := effect_keeps_retained p hp' hr
    rw [RetainedIsLastBroadcast, hvalid, hmeas, bcasts_effect p hp']
    exact h

end Sys2Proof.Machine
end

section
/-! PROOFS. The obligations of 41_decode.md, assembled from the lemmas above. -/

namespace Sys2Proof.Proofs

open Sys2Proof Sys2Proof.Machine Sys2Proof.Safety

/-- Settles O31: the reader inverts TEXT, and V is the count times its resolution. -/
theorem textReadsBack : Obligations.TextReadsBack := by
  intro x
  rw [readText_textOf, scaledValue_eq]

/-- Settles O53: every event keeps the invariant, and a refusal touches no register it speaks of. -/
theorem retainedMeasurementIsTheLastBroadcast : Obligations.RetainedMeasurementIsTheLastBroadcast :=
  fun _ _ hs h => step_preserves (P := RetainedIsLastBroadcast)
    (fun p i _ hb => retainedIsLastBroadcast_effect hb p i) (fun _ hb => hb) hs h

/-- Settles O23, by the accept test. -/
theorem pollResult : Obligations.PollResult := by
  refine ⟨rfl, fun s => ⟨_, exec_eq_effect .poll s, ?_⟩⟩
  rw [← magnitudeOf_eq_reverse, State.onBlock_toBlock, effect]
  by_cases h : PollIsDue s.toBlock
  · rw [if_pos h, decodeLoop_of_due h]
    rfl
  · rw [if_neg h, decodeLoop_of_not_due h]

/-- Settles O24, by induction on the number of POLLs. -/
theorem nonAcceptingPollsChangeNothing : Obligations.NonAcceptingPollsChangeNothing := by
  intro s n h
  induction n with
  | zero => rfl
  | succ n ih => simpa only [List.replicate_succ, runEvents, exec_poll_of_not_due h] using ih

/-- Settles O25, by induction on the sequence: the first POLL leaves none due. -/
theorem decodeExactlyOnce : Obligations.DecodeExactlyOnce := by
  refine ⟨fun s t h => ?_, fun es s he hr => ⟨_, runEvents_eq_effects es s, fun h => ?_, fun h => ?_⟩⟩
  · obtain rfl := exec_next_iff.mp h
    exact not_pollIsDue_decodeLoop s.toBlock
  · exact (bcasts_effects s.params he hr s.toBlock).trans (by rw [if_pos h])
  · exact (bcasts_effects s.params he hr s.toBlock).trans (by rw [if_neg h, List.append_nil])

/-- Settles O26, bit by bit. -/
theorem decodeFields : Obligations.DecodeFields :=
  ⟨fun p => ⟨rfl, rfl, magnitudeOf_getLsbD p⟩, fun _ _ => decodePacket_congr⟩

/-- Settles O28, bit by bit, and the three printed examples by computation. -/
theorem reversalLaws : Obligations.ReversalLaws :=
  ⟨rev24_rev24, fun _ _ => rev24_congr, fun x => ⟨rev24_shiftLeft_high x, rev24_shiftLeft_low x⟩, by decide⟩

/-- Settles O30: dec is Lean's decimal printing, and dec4 that of 10000 + k without its leading 1. -/
theorem textFormat : Obligations.TextFormat := by
  intro x v
  have hv : scaledValue x.unit x.magnitude = v := scaledValue_eq x.unit x.magnitude
  rw [textOf_eq, hv, dec_eq_repr, dec4_eq_tail_repr (Nat.mod_lt v (by decide)), signText]
  cases x.unit <;> rfl

/-- Settles O32: the integer part has at most 5 digits in millimetres and 3 in inches, and the four extreme texts are
computed. -/
theorem textLength : Obligations.TextLength := by
  refine ⟨fun x hu => ?_, fun x hu => ?_, by decide, by decide, by decide, by decide⟩
  · have hm := x.magnitude.isLt
    have h := textOf_length_bounds x (k := 5) (by decide) (by rw [scaledValue_eq, if_pos hu]; omega)
    rwa [hu] at h
  · have hm := x.magnitude.isLt
    have h := textOf_length_bounds x (k := 3) (by decide) (by rw [scaledValue_eq, hu, if_neg nofun]; omega)
    rwa [hu] at h

/-- Settles O33: the POLL accepts and broadcasts the text of the frame's measurement, which reads back. -/
theorem pollOfAFrameSpellsTheMeasurement : Obligations.PollOfAFrameSpellsTheMeasurement := by
  intro x s hready hrdy hnew
  have hdue : PollIsDue s.toBlock := ⟨hrdy, hnew.symm⟩
  refine ⟨_, textOf x, exec_eq_effect .poll s, ?_, rfl, textReadsBack x⟩
  rw [State.onBlock_toBlock, effect, decodeLoop_of_due hdue, hready, decodePacket_framePacket]
  rfl

/-- Settles O29: V by its definition, and below the bound of R138, which is below 2^27. -/
theorem scalingIsExact : Obligations.ScalingIsExact :=
  fun m => ⟨rfl, rfl, fun u => ⟨scaledValue_lt u m, (scaledValue_lt u m).trans (by decide)⟩⟩

end Sys2Proof.Proofs
end

section
/-! PROOFS, the layer under the trigger's statements. What an accepted TRIG leaves; the elapsed time that the next TRIG
sees, and the replays of a sequence by it; and that no event reads KEYS_CAPABLE. -/

namespace Sys2Proof.Machine

open Sys2Proof.Safety

/-! ## An accepted trigger (42_trigger.md R171) -/

/-- The records an accepted TRIG emits, none where nothing is retained and EMPTY_REPLAY suppresses. -/
def replayRecords (e : Config.EmptyReplay) (b : Block) : List Record :=
  if b.decValid then [.replay (textOf b.measurement)] else if e = .emitEmpty then [.replayEmpty] else []

theorem trigger_of_due {b : Block} (h : TriggerIsDue b) (e : Config.EmptyReplay) :
    b.trigger e = { b with lastTrig := b.now, out := b.out ++ replayRecords e b } := by
  rw [← debounced_iff] at h
  obtain ⟨-, hv, ht⟩ | ⟨-, hv, rfl, ht⟩ | ⟨-, hv, rfl, ht⟩ | ⟨hn, -⟩ := trigger_cases e b
  · have hrec : replayRecords e b = [.replay (textOf b.measurement)] := by simp [replayRecords, hv]
    rw [ht, hrec]; rfl
  · have hrec : replayRecords .emitEmpty b = [.replayEmpty] := by simp [replayRecords, hv]
    rw [ht, hrec]; rfl
  · have hrec : replayRecords .suppress b = [] := by simp [replayRecords, hv]
    rw [ht, hrec, List.append_nil]; rfl
  · cases h.symm.trans hn

theorem triggerGap_of_lastTrig_eq_now {b : Block} (h : b.lastTrig = b.now) : triggerGap b = 0 := by
  rw [triggerGap, h, Nat.add_sub_cancel_left, Nat.mod_self]

/-- An accepted TRIG restarts the interval. -/
theorem triggerGap_trigger_of_due {b : Block} (h : TriggerIsDue b) (e : Config.EmptyReplay) :
    triggerGap (b.trigger e) = 0 := by
  rw [trigger_of_due h]
  exact triggerGap_of_lastTrig_eq_now rfl

/-! ## The replays of one event (42_trigger.md R174) -/

@[simp] theorem replays_append (out out' : List Record) : replays (out ++ out') = replays out + replays out' :=
  List.countP_append

theorem replays_replayRecords (e : Config.EmptyReplay) (b : Block) :
    replays (replayRecords e b) = if b.decValid = true ∨ e = .emitEmpty then 1 else 0 := by
  cases hv : b.decValid <;> cases e <;> rw [replayRecords, hv] <;> rfl

theorem replays_trigger_of_due {b : Block} (h : TriggerIsDue b) (e : Config.EmptyReplay) :
    replays (b.trigger e).out = replays b.out + if b.decValid = true ∨ e = .emitEmpty then 1 else 0 := by
  rw [trigger_of_due h, replays_append, replays_replayRecords]

/-- Only an accepted TRIG emits a replay. -/
theorem replays_effect (p : Config.Params) {i : Instr} {b : Block} (ht : i = .trig → ¬ TriggerIsDue b) :
    replays (effect p i b).out = replays b.out := by
  obtain h | ⟨-, -, h⟩ | ⟨hi, hdue, -⟩ | ⟨hi, hdue, -⟩ := effect_out_cases p i b
  · rw [h]
  · rw [h, replays_append]; rfl
  · exact absurd hdue (ht hi)
  · exact absurd hdue (ht hi)

/-! ## The replays of a sequence (42_trigger.md R173) -/

theorem ticks_cons (i : Instr) (es : List Instr) : ticks (i :: es) = ticks [i] + ticks es :=
  List.count_append (l₁ := [i])

/-- While LAST_TRIG stays, the elapsed time a trigger sees grows by one with each TICK, modulo 2^W. -/
theorem triggerGap_effects (p : Config.Params) {es : List Instr} (hr : .reset ∉ es) {b : Block}
    (hlast : (effects p es b).lastTrig = b.lastTrig) :
    triggerGap (effects p es b) = (triggerGap b + ticks es) % 2 ^ 32 := by
  have hlt := b.lastTrig.isLt
  rw [triggerGap, triggerGap, effects_now_toNat p hr, hlast]
  omega

/-- A sequence that ends no later than 500 ms after LAST_TRIG accepts no trigger. -/
theorem effects_within_interval (p : Config.Params) {es : List Instr} (hr : .reset ∉ es) {b : Block}
    (h : triggerGap b + ticks es ≤ 500) :
    (effects p es b).lastTrig = b.lastTrig ∧ replays (effects p es b).out = replays b.out := by
  induction es generalizing b with
  | nil => exact ⟨rfl, rfl⟩
  | cons i es ih =>
    obtain ⟨hri, hres⟩ := not_or.mp (mt List.mem_cons.mpr hr)
    rw [ticks_cons] at h
    have hnot : i = .trig → ¬ TriggerIsDue b := fun _ => Nat.not_lt.mpr (by omega)
    have hlast : (effect p i b).lastTrig = b.lastTrig := effect_lastTrig p hnot (Ne.symm hri)
    have hgap : triggerGap (effect p i b) = (triggerGap b + ticks [i]) % 2 ^ 32 :=
      triggerGap_effects p (es := [i]) (mt List.mem_singleton.mp hri) hlast
    obtain ⟨hlast', hreplays'⟩ := ih hres (b := effect p i b) (by omega)
    exact ⟨hlast'.trans hlast, hreplays'.trans (replays_effect p hnot)⟩

/-- Within 500 TICKs of an accepted TRIG there is no replay but its own. -/
theorem replays_effects_of_trigger (p : Config.Params) {es : List Instr} (hr : .reset ∉ es) (hticks : ticks es ≤ 500)
    {b : Block} (hdue : TriggerIsDue b) :
    replays (effects p (.trig :: es) b).out =
      replays b.out + if b.decValid = true ∨ p.emptyReplay = .emitEmpty then 1 else 0 := by
  have hwithin : triggerGap (b.trigger p.emptyReplay) + ticks es ≤ 500 := by
    rwa [triggerGap_trigger_of_due hdue, Nat.zero_add]
  exact (effects_within_interval p hr hwithin).2.trans (replays_trigger_of_due hdue p.emptyReplay)

/-- Whatever the elapsed time at its start, a sequence of at most 500 TICKs has at most one replay. -/
theorem replays_effects_le (p : Config.Params) {es : List Instr} (hr : .reset ∉ es) (hticks : ticks es ≤ 500)
    (b : Block) : replays (effects p es b).out ≤ replays b.out + 1 := by
  induction es generalizing b with
  | nil => exact Nat.le_succ _
  | cons i es ih =>
    obtain ⟨hri, hres⟩ := not_or.mp (mt List.mem_cons.mpr hr)
    have htail : ticks es ≤ 500 := by rw [ticks_cons] at hticks; omega
    by_cases haccept : i = .trig ∧ TriggerIsDue b
    · obtain ⟨rfl, hdue⟩ := haccept
      rw [replays_effects_of_trigger p hres htail hdue]
      split <;> omega
    · have hkept := replays_effect p fun hi hdue => haccept ⟨hi, hdue⟩
      rw [effects_cons, ← hkept]
      exact ih hres htail _

/-! ## KEYS_CAPABLE (42_trigger.md R175) -/

/-- No event reads KEYS_CAPABLE. -/
theorem effect_keysCapable_unread (p : Config.Params) (keys : Bool) :
    effect { p with keysCapable := keys } = effect p := by
  funext i
  cases i <;> rfl

theorem effects_keysCapable_unread (p : Config.Params) (keys : Bool) (es : List Instr) (b : Block) :
    effects { p with keysCapable := keys } es b = effects p es b := by
  rw [effects, effect_keysCapable_unread, effects]

end Sys2Proof.Machine
end

section
/-! PROOFS. The obligations of 42_trigger.md, assembled from the lemmas above. -/

namespace Sys2Proof.Proofs

open Sys2Proof Sys2Proof.Machine Sys2Proof.Safety

/-- Settles O36: an accepted trigger restarts the interval, which no later trigger passes within 500 TICKs; and two
accepted triggers with LAST_TRIG kept between see the TICKs between them. -/
theorem triggersAreRateLimited : Obligations.TriggersAreRateLimited := by
  refine ⟨fun es s hr hticks => ⟨_, runEvents_eq_effects es s, replays_effects_le s.params hr hticks s.toBlock⟩,
    fun es s hr hticks hdue hsome => ⟨_, runEvents_eq_effects (.trig :: es) s, ?_⟩,
    fun es s t u hdue hfirst hr hrun hlast hdue' => ?_⟩
  · exact (replays_effects_of_trigger s.params hr hticks hdue).trans (by rw [if_pos hsome])
  · obtain rfl := exec_next_iff.mp hfirst
    obtain rfl := runEvents_next_iff.mp hrun
    have hrestart : triggerGap (s.trigger s.params.emptyReplay) = 0 := triggerGap_trigger_of_due hdue _
    have hgap := triggerGap_effects s.params hr hlast
    rw [State.onBlock_toBlock, effect, hrestart, Nat.zero_add] at hgap
    exact hdue'.trans_eq hgap

/-- Settles O35, by the debounce test. -/
theorem trigResult : Obligations.TrigResult := by
  refine ⟨rfl, fun s => ⟨_, exec_eq_effect .trig s, ?_⟩⟩
  rw [State.onBlock_toBlock, effect]
  by_cases h : TriggerIsDue s.toBlock
  · rw [if_pos h, trigger_of_due h]
    rfl
  · rw [if_neg h, trigger_of_not_due h]

/-- Settles O39: no event writes the parameters, none reads KEYS_CAPABLE, and of the records only REPLAY is typed. -/
theorem keystrokeCapabilityIsFixed : Obligations.KeystrokeCapabilityIsFixed := by
  refine ⟨fun es s keys => ⟨_, _, runEvents_eq_effects es s, runEvents_eq_effects es _, rfl,
    effects_keysCapable_unread s.params keys es s.toBlock⟩, fun r hr => ?_⟩
  cases r with
  | replay text => exact absurd rfl (hr text)
  | bcast | replayEmpty => rfl

/-- Settles O38, by what `deliver` makes of a REPLAY under each value of KEYS_CAPABLE. -/
theorem replayDelivery : Obligations.ReplayDelivery := by
  refine fun keys text => ⟨rfl, fun h => ?_, fun h => ?_⟩
  all_goals rw [h]; rfl

end Sys2Proof.Proofs
end

section
/-! PROOFS, the layer under the exceptions' statements. The code a refused word records; a TICK and an edge at one
instant; and what the consumer's two events write and read. -/

namespace Sys2Proof.Machine

open Sys2Proof.Safety

/-! ## The code of a refused word (60_exceptions.md R203) -/

/-- The table of refusal codes on a word, over the integers. -/
theorem refusal?_fieldsOf (w : EventWord) :
    (fieldsOf w).refusal? =
      if w.toNat / 32 = 0 then some .opZero
      else if w.toNat / 32 = 7 then some .opSeven
      else if w.toNat / 2 % 16 ≠ 0 then some .reservedBits
      else if w.toNat / 32 ≠ 1 ∧ w.toNat % 2 = 1 then some .strayLevel
      else none := by
  simp [EventFields.refusal?, ← BitVec.toNat_inj, fieldsOf_op_toNat, fieldsOf_rsv_toNat, fieldsOf_d_toNat]

/-- The decoder refuses a word with its code in the table. -/
theorem decode_eq_error_of_refusal? {w : EventWord} {c : RefusalCode} (h : (fieldsOf w).refusal? = some c) :
    decode w = .error c := by
  simp only [decode, h]

theorem exists_decode_eq_ok_of_refusal? {w : EventWord} (h : (fieldsOf w).refusal? = none) :
    ∃ i, decode w = .ok i := by
  obtain ⟨i, hi, -⟩ | ⟨c, -, -, hc⟩ := decode_cases w
  · exact ⟨i, hi⟩
  · cases h.symm.trans hc

/-- A refusal sets REFUSED, changes no other register, and its code is the last one recorded. -/
theorem step_of_refused_records {s : State} {w : EventWord} {ws : List EventWord} {c : RefusalCode}
    (hp : s.pending = w :: ws) (hc : (fieldsOf w).refusal? = some c) :
    ∃ c' t, step s = .next t ∧ t.toBlock = { s.toBlock with refused := true } ∧ t.refusals.getLast? = some c' ∧
      c'.code = c.code :=
  ⟨c, _, step_of_refused hp (decode_eq_error_of_refusal? hc), rfl, List.getLast?_concat, rfl⟩

/-! ## A TICK and an edge at one instant (60_exceptions.md R206) -/

/-- One TICK adds one to the elapsed time the next edge sees, modulo 2^W. -/
theorem edgeGap_advanceTime (b : Block) : edgeGap b.advanceTime = (edgeGap b + 1) % 2 ^ 32 := by
  have := b.lastT.isLt
  rw [edgeGap, edgeGap, advanceTime_now_toNat, Block.advanceTime_lastT]
  omega

/-- At an elapsed time of exactly GAP_MS an edge is not late. -/
theorem not_edgeIsLate_of_edgeGap_eq {s : State} (h : edgeGap s.toBlock = s.params.gapMs.toNat) : ¬ EdgeIsLate s :=
  Nat.not_lt.mpr h.le

/-- One TICK after that it is. -/
theorem edgeIsLate_after_tick {s : State} (h : edgeGap s.toBlock = s.params.gapMs.toNat)
    (hg : s.params.gapMs.toNat + 1 < 2 ^ 32) : EdgeIsLate (s.onBlock Block.advanceTime) := by
  rw [EdgeIsLate, State.onBlock_params, State.onBlock_toBlock, edgeGap_advanceTime, h, Nat.mod_eq_of_lt hg]
  exact Nat.lt_succ_self _

/-! ## The two contexts (60_exceptions.md R208) -/

/-- Whether an edge is late depends on LAST_T, NOW and GAP_MS alone. -/
theorem edgeIsLate_congr {s s' : State} (hlastT : s.lastT = s'.lastT) (hnow : s.now = s'.now)
    (hparams : s.params = s'.params) : EdgeIsLate s ↔ EdgeIsLate s' := by
  rw [EdgeIsLate, EdgeIsLate, edgeGap, edgeGap, hlastT, hnow, hparams]

/-- An edge only ever sets RDY. -/
theorem fallingEdge_rdy_cases (s : State) (d : Bit) :
    (s.fallingEdge s.params.gapMs d).rdy = s.rdy ∨ (s.fallingEdge s.params.gapMs d).rdy = true := by
  rw [fallingEdge_rdy]
  split
  · exact .inr rfl
  · exact .inl rfl

/-- What an edge writes depends on RAW, LAST_T, NOW and the parameters alone: on states that agree on these, either
both edges publish the same, or neither touches READY and RDY. -/
theorem fallingEdge_reads {s s' : State} (hraw : s.raw = s'.raw) (hlastT : s.lastT = s'.lastT)
    (hnow : s.now = s'.now) (hparams : s.params = s'.params) (d : Bit) :
    let b := s.fallingEdge s.params.gapMs d
    let b' := s'.fallingEdge s'.params.gapMs d
    b.raw = b'.raw ∧ b.lastT = b'.lastT ∧
      ((b.ready = b'.ready ∧ b.rdy = b'.rdy) ∨
        (b.ready = s.ready ∧ b.rdy = s.rdy ∧ b'.ready = s'.ready ∧ b'.rdy = s'.rdy)) := by
  have hlate := edgeIsLate_congr hlastT hnow hparams
  by_cases h : EdgeIsLate s
  · rw [fallingEdge_of_late h, fallingEdge_of_late (hlate.mp h)]
    exact ⟨rfl, hnow, .inl ⟨hraw, rfl⟩⟩
  · rw [fallingEdge_of_not_late h, fallingEdge_of_not_late (mt hlate.mpr h)]
    exact ⟨congrArg (shiftIn · (dataBit d)) hraw, hnow, .inr ⟨rfl, rfl, rfl, rfl⟩⟩

/-- The events of the consumer write RDY, LAST_PKT, the DEC registers, LAST_TRIG and OUT alone. -/
theorem effect_consumer_frame (p : Config.Params) {i : Instr} (hi : i = .poll ∨ i = .trig) (b : Block) :
    effect p i b = { b with
      rdy := (effect p i b).rdy, lastPkt := (effect p i b).lastPkt, decValid := (effect p i b).decValid
      decUnit := (effect p i b).decUnit, decSign := (effect p i b).decSign, decMag := (effect p i b).decMag
      lastTrig := (effect p i b).lastTrig, out := (effect p i b).out } := by
  obtain rfl | rfl := hi
  · rw [effect, decodeLoop_frame]
  · rw [effect, trigger_frame]

/-- The events of the consumer only ever clear RDY. -/
theorem effect_consumer_rdy_cases (p : Config.Params) {i : Instr} (hi : i = .poll ∨ i = .trig) (b : Block) :
    (effect p i b).rdy = b.rdy ∨ (effect p i b).rdy = false := by
  obtain rfl | rfl := hi
  · rw [effect, decodeLoop_rdy]
    split
    · exact .inr rfl
    · exact .inl rfl
  · exact .inl (trigger_rdy p.emptyReplay b)

/-- The operation reads neither RAW, LAST_T, REFUSED nor OUT: whatever they hold, it leaves the first three, appends
the same records to the last, and does the same to every other register. -/
def IgnoresFrameAndLog (f : Block → Block) : Prop :=
  ∀ b : Block, ∃ new, (f b).out = b.out ++ new ∧
    ∀ (raw : Packet) (lastT : Time) (refused : Bool) (out : List Record),
      f { b with raw := raw, lastT := lastT, refused := refused, out := out } =
        { f b with raw := raw, lastT := lastT, refused := refused, out := out ++ new }

theorem decodeLoop_ignoresFrameAndLog : IgnoresFrameAndLog Block.decodeLoop := by
  intro b
  by_cases h : PollIsDue b
  · refine ⟨[.bcast (textOf (decodePacket b.ready))], by rw [decodeLoop_of_due h]; rfl,
      fun raw lastT refused out => ?_⟩
    have h' : PollIsDue { b with raw := raw, lastT := lastT, refused := refused, out := out } := h
    rw [decodeLoop_of_due h, decodeLoop_of_due h']
    rfl
  · refine ⟨[], by rw [decodeLoop_of_not_due h, List.append_nil], fun raw lastT refused out => ?_⟩
    have h' : ¬ PollIsDue { b with raw := raw, lastT := lastT, refused := refused, out := out } := h
    rw [decodeLoop_of_not_due h, decodeLoop_of_not_due h', List.append_nil]

theorem trigger_ignoresFrameAndLog (e : Config.EmptyReplay) : IgnoresFrameAndLog (Block.trigger e) := by
  intro b
  by_cases h : TriggerIsDue b
  · refine ⟨replayRecords e b, by rw [trigger_of_due h], fun raw lastT refused out => ?_⟩
    have h' : TriggerIsDue { b with raw := raw, lastT := lastT, refused := refused, out := out } := h
    rw [trigger_of_due h, trigger_of_due h']
    rfl
  · refine ⟨[], by rw [trigger_of_not_due h, List.append_nil], fun raw lastT refused out => ?_⟩
    have h' : ¬ TriggerIsDue { b with raw := raw, lastT := lastT, refused := refused, out := out } := h
    rw [trigger_of_not_due h, trigger_of_not_due h', List.append_nil]

theorem effect_consumer_ignoresFrameAndLog (p : Config.Params) {i : Instr} (hi : i = .poll ∨ i = .trig) :
    IgnoresFrameAndLog (effect p i) := by
  obtain rfl | rfl := hi
  · exact decodeLoop_ignoresFrameAndLog
  · exact trigger_ignoresFrameAndLog p.emptyReplay

end Sys2Proof.Machine
end

section
/-! PROOFS. The obligations of 60_exceptions.md, assembled from the lemmas above. -/

namespace Sys2Proof.Proofs

open Sys2Proof Sys2Proof.Machine Sys2Proof.Safety

/-- Settles O5: the decoder refuses by the table, the refusal records that code, and no step clears REFUSED. -/
theorem refusalRecordsItsCode : Obligations.RefusalRecordsItsCode := by
  obtain ⟨-, -, -, hsticky⟩ := refusedMarkIsSticky
  refine ⟨fun s w ws hp => ?_, hsticky⟩
  have hcode := refusal?_fieldsOf w
  split_ifs at hcode ⊢
  · exact step_of_refused_records hp hcode
  · exact step_of_refused_records hp hcode
  · exact step_of_refused_records hp hcode
  · exact step_of_refused_records hp hcode
  · exact exists_decode_eq_ok_of_refusal? hcode

/-- Settles O9: the step runs the event of a defined word, which keeps REFUSED, or refuses the word. -/
theorem everyWordHasAnOutcome : Obligations.EveryWordHasAnOutcome := by
  refine ⟨fun i s => ⟨_, exec_eq_effect i s⟩, fun s w ws hp => ?_⟩
  cases hd : decode w with
  | ok i =>
    have hdefined := (exists_eq_encode_iff w).mp ⟨i, decode_eq_ok_iff.mp hd⟩
    refine ⟨_, (step_of_event hp hd).trans (exec_eq_effect i _), rfl, ?_⟩
    rw [if_pos hdefined]
    exact effect_refused s.params i s.toBlock
  | error c =>
    have hundefined := mt (exists_eq_encode_iff w).mpr fun ⟨i, hi⟩ => by
      cases (decode_eq_ok_iff.mpr hi).symm.trans hd
    refine ⟨_, step_of_refused hp hd, rfl, ?_⟩
    rw [if_neg hundefined]
    rfl

/-- Settles O22: the edge is late after the TICK and not before it. -/
theorem tickAndEdgeOrderMatters : Obligations.TickAndEdgeOrderMatters := by
  intro s d hgap hg
  have hpublish := fallingEdge_of_late (edgeIsLate_after_tick hgap hg) d
  have hshift := fallingEdge_of_not_late (not_edgeIsLate_of_edgeGap_eq hgap) d
  have htickFirst : effects s.params [.tick, .clkFall d] s.toBlock =
      (s.advanceTime.publish (dataBit d)).stampEdge := hpublish
  have hedgeFirst : effects s.params [.clkFall d, .tick] s.toBlock =
      (s.shiftBit (dataBit d)).stampEdge.advanceTime := congrArg Block.advanceTime hshift
  refine ⟨_, _, runEvents_eq_effects _ s, runEvents_eq_effects _ s, ?_⟩
  rw [State.onBlock_toBlock, State.onBlock_toBlock, htickFirst, hedgeFirst]
  exact ⟨rfl, rfl, rfl, rfl, rfl⟩

/-- Settles O48: the frames of the three events, that an edge decides by LAST_T, NOW and GAP_MS, and that the consumer's
events ignore RAW, LAST_T, REFUSED and OUT. -/
theorem contextsKeepToTheirDuties : Obligations.ContextsKeepToTheirDuties := by
  refine ⟨fun d s t h => ?_, fun i s t hi h => ?_, fun d s s' t t' hraw hlastT hnow hparams h h' => ?_,
    fun i s s' t t' hi hs hparams h h' => ?_⟩
  all_goals obtain rfl := exec_next_iff.mp h
  · exact ⟨fallingEdge_frame s.params.gapMs d s.toBlock, fallingEdge_rdy_cases s d⟩
  · exact ⟨effect_consumer_frame s.params hi s.toBlock, effect_consumer_rdy_cases s.params hi s.toBlock⟩
  · obtain rfl := exec_next_iff.mp h'
    exact fallingEdge_reads hraw hlastT hnow hparams d
  · obtain rfl := exec_next_iff.mp h'
    obtain ⟨new, hout, hsame⟩ := effect_consumer_ignoresFrameAndLog s.params hi s.toBlock
    refine ⟨new, hout, ?_⟩
    rw [State.onBlock_toBlock, hparams]
    exact (congrArg (effect s.params i) hs).trans (hsame s'.raw s'.lastT s'.refused s'.out)

/-- Settles O6: the refusal appends its code, at the state that has seen the word. -/
theorem refusalLogKeepsEveryCode : Obligations.RefusalLogKeepsEveryCode :=
  fun _ _ _ _ hp hd => ⟨_, step_of_refused hp hd, State.refuse_refusals .., State.refuse_pending ..,
    State.refuse_params ..⟩

end Sys2Proof.Proofs
end

section
/-! PROOFS, the layer under the statements of reset and time. What an edge and a trigger see n TICKs after the edge, the
trigger or the RESET before them, and the first edge after a RESET. -/

namespace Sys2Proof.Machine

open Sys2Proof.Safety

/-! ## Elapsed time after n TICKs (70_reset_and_hazards.md R244) -/

/-- Every edge, late or not, stamps its time (40_capture.md R101 step 5). -/
@[simp] theorem fallingEdge_lastT (g : Time) (d : Bit) (b : Block) : (b.fallingEdge g d).lastT = b.now := by
  obtain ⟨-, h⟩ | ⟨-, h⟩ := fallingEdge_cases g d b <;> rw [h] <;> rfl

/-- n TICKs after an edge, the next edge is late by n modulo 2^W. -/
theorem edgeIsLate_after_edge_wait (s : State) (d : Bit) (n : Nat) :
    EdgeIsLate (s.onBlock (effects s.params (.clkFall d :: waitEvents n))) ↔ s.params.gapMs.toNat < n % 2 ^ 32 := by
  have hgap : edgeGap (effects s.params (.clkFall d :: waitEvents n) s.toBlock) = n % 2 ^ 32 :=
    edgeGap_of_wait (by rw [effects_cons, effects_waitEvents, effect, fallingEdge_now, fallingEdge_lastT])
  rw [EdgeIsLate, State.onBlock_toBlock, State.onBlock_params, hgap]

/-- n TICKs after an accepted trigger, the next one is due by n modulo 2^W. -/
theorem triggerIsDue_after_trigger_wait (p : Config.Params) (n : Nat) {b : Block} (h : TriggerIsDue b) :
    TriggerIsDue (effects p (.trig :: waitEvents n) b) ↔ 500 < n % 2 ^ 32 := by
  have hr : Instr.reset ∉ waitEvents n := fun hmem => nomatch List.eq_of_mem_replicate hmem
  have hticks : ticks (waitEvents n) = n := List.count_replicate_self
  have hlast : (effects p (waitEvents n) (b.trigger p.emptyReplay)).lastTrig = (b.trigger p.emptyReplay).lastTrig := by
    rw [effects_waitEvents]
  rw [TriggerIsDue, effects_cons, effect, triggerGap_effects p hr hlast, triggerGap_trigger_of_due h, hticks,
    Nat.zero_add]

/-! ## After a RESET (70_reset_and_hazards.md R241, R242) -/

theorem effects_reset_wait (p : Config.Params) (n : Nat) (b : Block) :
    effects p (.reset :: waitEvents n) b = { b.clear with now := BitVec.ofNat 32 n } := by
  rw [effects_cons, effects_waitEvents, effect, Block.clear_now, BitVec.zero_add]

/-- The first edge after a RESET publishes the reset value of RAW where it is late, and shifts its bit into it where it
is not: either way READY stays 0 and RAW holds the bit alone, and RDY alone tells the two apart. -/
theorem effects_reset_wait_edge (p : Config.Params) (n : Nat) (d : Bit) (b : Block) :
    effects p (.reset :: waitEvents n ++ [.clkFall d]) b =
      { b.clear with
        raw := (dataBit d).setWidth 32, rdy := decide (p.gapMs.toNat < n % 2 ^ 32)
        lastT := BitVec.ofNat 32 n, now := BitVec.ofNat 32 n } := by
  have hnew : newFrame 0#32 (BitVec.ofNat 32 n) p.gapMs = decide (p.gapMs.toNat < n % 2 ^ 32) := by
    simp only [newFrame, elapsed, BitVec.sub_zero, BitVec.lt_def, BitVec.toNat_ofNat]
  have hshift : shiftIn 0#32 (dataBit d) = (dataBit d).setWidth 32 := BitVec.zero_or
  have hcases := fallingEdge_cases p.gapMs d { b.clear with now := BitVec.ofNat 32 n }
  rw [Block.clear_lastT, hnew] at hcases
  rw [effects_append, effects_reset_wait, effects_cons, effects_nil, effect]
  obtain ⟨hlate, h⟩ | ⟨hlate, h⟩ := hcases
  · rw [h, hlate]
    rfl
  · rw [h, hlate, ← hshift]
    rfl

/-- At 500 ms after a LAST_TRIG of 0, one TICK more and a TRIG are accepted at NOW = 501 (42_trigger.md R171). -/
theorem trigger_after_tick_at_501 (e : Config.EmptyReplay) {b : Block} (hnow : b.now = 500#32)
    (hlast : b.lastTrig = 0#32) :
    (b.advanceTime.trigger e).now = 501#32 ∧ (b.advanceTime.trigger e).lastTrig = 501#32 := by
  have hnow' : b.advanceTime.now = 501#32 := by rw [Block.advanceTime_now, hnow]; rfl
  have hdue : TriggerIsDue b.advanceTime := by
    rw [TriggerIsDue, triggerGap, hnow', Block.advanceTime_lastTrig, hlast]
    decide
  rw [trigger_of_due hdue]
  exact ⟨hnow', hnow'⟩

end Sys2Proof.Machine
end

section
/-! PROOFS. The obligations of 70_reset_and_hazards.md, assembled from the lemmas above. -/

namespace Sys2Proof.Proofs

open Sys2Proof Sys2Proof.Machine Sys2Proof.Safety

/-- Settles O37: RESET puts LAST_TRIG and NOW at 0, so the sequence ends within the interval, and 501 is past it. -/
theorem triggerAfterReset : Obligations.TriggerAfterReset := by
  intro es s hr hticks
  have hwithin : triggerGap s.clear + ticks es ≤ 500 := by
    rwa [triggerGap_of_lastTrig_eq_now rfl, Nat.zero_add]
  obtain ⟨hlast, hreplays⟩ := effects_within_interval s.params hr hwithin
  refine ⟨_, runEvents_eq_effects (.reset :: es) s, hlast, hreplays, fun h500 => ?_⟩
  have hnow : (effects s.params es s.clear).now = 500#32 := by
    apply BitVec.eq_of_toNat_eq
    rw [effects_now_toNat s.params hr, h500]
    rfl
  exact ⟨_, runEvents_eq_effects [.tick, .trig] _, trigger_after_tick_at_501 s.params.emptyReplay hnow hlast⟩

/-- Settles O42: whether or not the edge is late, READY stays at the reset value, which LAST_PKT holds as well, so the
POLL does not accept. -/
theorem firstEdgeAfterReset : Obligations.FirstEdgeAfterReset := by
  intro s n d hn
  have hedge := effects_reset_wait_edge s.params n d s.toBlock
  have hpoll : ¬ PollIsDue (effects s.params (.reset :: waitEvents n ++ [.clkFall d]) s.toBlock) := by
    rw [hedge]
    exact fun hdue => hdue.2 rfl
  refine ⟨_, _, runEvents_eq_effects _ s, exec_poll_of_not_due hpoll, rfl, ?_⟩
  rw [State.onBlock_toBlock, hedge]
  exact ⟨rfl, setWidth_dataBit_toNat d, by rw [decide_eq_true_iff, Nat.mod_eq_of_lt hn]⟩

/-- Settles O43: both elapsed times restart at the first event, and the TICKs after it are counted modulo 2^W. -/
theorem elapsedTimeIsModular : Obligations.ElapsedTimeIsModular := by
  refine ⟨fun s n d d' => ⟨_, _, runEvents_eq_effects _ s, exec_eq_effect _ _, ?_⟩,
    fun s n hdue => ⟨_, _, runEvents_eq_effects _ s, exec_eq_effect _ _, ?_⟩⟩
  · have hlate := edgeIsLate_after_edge_wait s d n
    split_ifs with h
    · rw [State.onBlock_toBlock, effect, fallingEdge_of_late (hlate.mpr h)]
      exact ⟨rfl, rfl⟩
    · rw [State.onBlock_toBlock, effect, fallingEdge_of_not_late (mt hlate.mp h)]
      exact ⟨rfl, rfl⟩
  · have hdue' := triggerIsDue_after_trigger_wait s.params n hdue
    split_ifs with h
    · simp only [State.onBlock_toBlock, effect, trigger_of_due (hdue'.mpr h)]
    · simp only [State.onBlock_toBlock, effect, trigger_of_not_due (mt hdue'.mp h)]

/-- Settles O40: RESET writes every register but REFUSED and OUT. -/
theorem resetResult : Obligations.ResetResult :=
  ⟨rfl, fun s => ⟨_, exec_eq_effect .reset s, rfl⟩⟩

end Sys2Proof.Proofs
end
